-- ==== Sys2Proof/Word.lean ====
section
/-! DEFINITION. The words of the block: 32-bit registers and bus words (spec/00_scope.md R8), 16-bit accumulator, bytes. -/

namespace Sys2Proof

/-- A 32-bit register, bus or command word (R8, R51). -/
abbrev Word := BitVec 32

/-- A 16-bit value: the CRC accumulator, and a width-2 window value (R8, R68). -/
abbrev Half := BitVec 16

/-- A byte: one window register, and the operand of CRC.BYTE (R25, R54). -/
abbrev Byte := BitVec 8

end Sys2Proof
end

