-- ==== Sys2Proof/Syntax.lean ====
section
/-! DEFINITION. The commands of the block (one constructor per row of spec/opcode_table.json), their operand types,
and the abstract syntax of the assembler and of client programs (spec/30_encoding.md R65 to R67). -/

namespace Sys2Proof

/-- A byte order, carried by each value command in its E bit (R39, R56). -/
inductive Endian where
  | little
  | big
  deriving DecidableEq, Repr

/-- The seven value kinds, in the order of their K codes (R55). -/
inductive Kind where
  | uint8
  | uint16
  | int16
  | uint32
  | float32
  | enum8
  | bitfield8
  deriving DecidableEq, Repr

/-- The tag of the value that a kind decodes to (R55, R23). -/
inductive Tag where
  | u8
  | u16
  | i16
  | u32
  | f32
  deriving DecidableEq, Repr

/-- The nine named word slots of the register window (R32). Every other slot is reserved. -/
inductive Slot where
  | cmd
  | data
  | result
  | crc
  | status
  | win0
  | win1
  | win2
  | win3
  deriving DecidableEq, Repr

/-- A legal command: the 16 rows of R59. `e` is the E field, `b` the B field. -/
inductive Instr where
  | crcInit
  | crcByte (b : Byte)
  | vrdUint8 (e : Endian)
  | vrdUint16 (e : Endian)
  | vrdInt16 (e : Endian)
  | vrdUint32 (e : Endian)
  | vrdFloat32 (e : Endian)
  | vrdEnum8 (e : Endian)
  | vrdBitfield8 (e : Endian)
  | vwrUint8 (e : Endian)
  | vwrUint16 (e : Endian)
  | vwrInt16 (e : Endian)
  | vwrUint32 (e : Endian)
  | vwrFloat32 (e : Endian)
  | vwrEnum8 (e : Endian)
  | vwrBitfield8 (e : Endian)
  deriving DecidableEq, Repr

/-- A command as an assembler reads it (R65): the operand of CRC.BYTE is an unchecked integer, the order of a value
command may be left out. -/
inductive AsmCommand where
  | crcInit
  | crcByte (b : Nat)
  | vrd (k : Kind) (order : Option Endian)
  | vwr (k : Kind) (order : Option Endian)
  deriving DecidableEq, Repr

/-- A line of a client program: the two accesses of R66, a line that holds no more than a comment (R66), and the
pseudo-instructions of R67. -/
inductive ClientLine where
  | comment
  | write (slot : Slot) (v : Word)
  | writeCommand (c : AsmCommand)
  | read (slot : Slot)
  | command (c : AsmCommand)
  | crcBytes (bs : List Nat)
  | crcOver (bs : List Nat)
  | loadWin (bs : List Word)
  | put (v : Word)
  | crcSer
  deriving DecidableEq, Repr

end Sys2Proof
end

