-- ==== Sys2Proof/WellFormed.lean ====
section
/-! DEFINITION. The checks on syntax: commands, assembler commands (spec/30_encoding.md R65), client lines (R66, R67). -/

namespace Sys2Proof

/-- Every term of `Instr` is well formed: B is a byte and E one of two orders by their types, and K = 7 has no
constructor (R54 to R56, R62). Written per constructor so that a new command must state its own check. -/
def Instr.wellFormed : Instr → Bool
  | .crcInit => true
  | .crcByte _ => true
  | .vrdUint8 _ => true
  | .vrdUint16 _ => true
  | .vrdInt16 _ => true
  | .vrdUint32 _ => true
  | .vrdFloat32 _ => true
  | .vrdEnum8 _ => true
  | .vrdBitfield8 _ => true
  | .vwrUint8 _ => true
  | .vwrUint16 _ => true
  | .vwrInt16 _ => true
  | .vwrUint32 _ => true
  | .vwrFloat32 _ => true
  | .vwrEnum8 _ => true
  | .vwrBitfield8 _ => true

/-- R65: for which kinds the assembler lets the order be left out (the width-1 kinds). -/
def Kind.orderOptional : Kind → Bool
  | .uint8 => true
  | .uint16 => false
  | .int16 => false
  | .uint32 => false
  | .float32 => false
  | .enum8 => true
  | .bitfield8 => true

/-- R65: "An operand outside 0..255 is an assembly error"; the order may be omitted for the width-1 kinds only. -/
def AsmCommand.wellFormed : AsmCommand → Bool
  | .crcInit => true
  | .crcByte b => b ≤ 255
  | .vrd k order => order.isSome || k.orderOptional
  | .vwr k order => order.isSome || k.orderOptional

/-- R67: the byte operands are those of CRC.BYTE, and LOADWIN takes one to four of them. -/
def ClientLine.wellFormed : ClientLine → Bool
  | .comment => true
  | .write _ _ => true
  | .writeCommand c => c.wellFormed
  | .read _ => true
  | .command c => c.wellFormed
  | .crcBytes bs => bs.all (· ≤ 255)
  | .crcOver bs => bs.all (· ≤ 255)
  | .loadWin bs => 1 ≤ bs.length && bs.length ≤ 4
  | .put _ => true
  | .crcSer => true

end Sys2Proof
end

