-- ==== Sys2Proof/Decode.lean ====
section
/-! DEFINITION. Command words: fields, decoder, encoder and opcode table (spec/30_encoding.md R51 to R64). -/

namespace Sys2Proof

/-! ## Field codes -/

/-- The E bit of a byte order (R56). -/
def Endian.bit : Endian → BitVec 1
  | .little => 0
  | .big => 1

/-- The byte order an E bit selects (R56). -/
def Endian.ofBit (b : BitVec 1) : Endian :=
  if b = 1 then .big else .little

/-- The K code of a kind (R55). -/
def Kind.code : Kind → BitVec 3
  | .uint8 => 0
  | .uint16 => 1
  | .int16 => 2
  | .uint32 => 3
  | .float32 => 4
  | .enum8 => 5
  | .bitfield8 => 6

/-- The kind a K field names; K = 7 is reserved (R55, R62). -/
def Kind.ofCode? (k : BitVec 3) : Option Kind :=
  if k = 0 then some .uint8
  else if k = 1 then some .uint16
  else if k = 2 then some .int16
  else if k = 3 then some .uint32
  else if k = 4 then some .float32
  else if k = 5 then some .enum8
  else if k = 6 then some .bitfield8
  else none

/-- The width w of a kind in bytes (R55). -/
def Kind.width : Kind → Nat
  | .uint8 => 1
  | .uint16 => 2
  | .int16 => 2
  | .uint32 => 4
  | .float32 => 4
  | .enum8 => 1
  | .bitfield8 => 1

/-- The tag of a kind's decoded value (R55, R23). -/
def Kind.tag : Kind → Tag
  | .uint8 => .u8
  | .uint16 => .u16
  | .int16 => .i16
  | .uint32 => .u32
  | .float32 => .f32
  | .enum8 => .u8
  | .bitfield8 => .u8

/-- The VRD command of a kind (R59). -/
def Instr.vrd (k : Kind) (e : Endian) : Instr :=
  match k with
  | .uint8 => .vrdUint8 e
  | .uint16 => .vrdUint16 e
  | .int16 => .vrdInt16 e
  | .uint32 => .vrdUint32 e
  | .float32 => .vrdFloat32 e
  | .enum8 => .vrdEnum8 e
  | .bitfield8 => .vrdBitfield8 e

/-- The VWR command of a kind (R59). -/
def Instr.vwr (k : Kind) (e : Endian) : Instr :=
  match k with
  | .uint8 => .vwrUint8 e
  | .uint16 => .vwrUint16 e
  | .int16 => .vwrInt16 e
  | .uint32 => .vwrUint32 e
  | .float32 => .vwrFloat32 e
  | .enum8 => .vwrEnum8 e
  | .bitfield8 => .vwrBitfield8 e

/-! ## Decoder -/

/-- Why a word is no command. The block records none of these (R97): they name the decoder's rejections. -/
inductive Illegal where
  /-- OP is 0x0 or 0x5..0xF (R60). -/
  | reservedOp
  /-- OP is legal and a bit the format reserves is 1 (R61). -/
  | reservedBits
  /-- A format-V word with K = 7 (R62). -/
  | reservedKind
  deriving DecidableEq, Repr

/-- A format-V word (R55): bits 27:9 and 7:3 must be 0, K must be a kind. -/
def decodeFormatV (mk : Kind → Endian → Instr) (w : Word) : Except Illegal Instr :=
  if w.extractLsb' 9 19 = 0 ∧ w.extractLsb' 3 5 = 0 then
    match Kind.ofCode? (w.extractLsb' 0 3) with
    | some k => .ok (mk k (Endian.ofBit (w.extractLsb' 8 1)))
    | none => .error .reservedKind
  else .error .reservedBits

/-- Which command a word spells, in the order of the tests of R58. Total: every word is a command or is rejected. -/
def decodeWord (w : Word) : Except Illegal Instr :=
  let op := w.extractLsb' 28 4
  if op = 0x1 then
    if w.extractLsb' 0 28 = 0 then .ok .crcInit else .error .reservedBits
  else if op = 0x2 then
    if w.extractLsb' 8 20 = 0 then .ok (.crcByte (w.extractLsb' 0 8)) else .error .reservedBits
  else if op = 0x3 then decodeFormatV Instr.vrd w
  else if op = 0x4 then decodeFormatV Instr.vwr w
  else .error .reservedOp

/-- The decoder on a row of spec/opcode_table.json. A command is one 32-bit word written to CMD as one number, with no
byte lanes (R38, R51), so the table's bit numbers are the word's. Bits above `nbits` are 0. -/
def decodeTableWord (nbits w : Nat) : Option Instr :=
  if nbits ≤ 32 then (decodeWord (BitVec.ofNat 32 (w % 2 ^ nbits))).toOption else none

/-! ## Encoder -/

/-- A format-V word, field by field from bit 31 down (R55). -/
def encodeFormatV (op : BitVec 4) (k : Kind) (e : Endian) : Word :=
  op ++ (0 : BitVec 19) ++ e.bit ++ (0 : BitVec 5) ++ k.code

/-- The word of a command (R53 to R55). -/
def encode : Instr → Word
  | .crcInit => (0x1 : BitVec 4) ++ (0 : BitVec 28)
  | .crcByte b => (0x2 : BitVec 4) ++ (0 : BitVec 20) ++ b
  | .vrdUint8 e => encodeFormatV 0x3 .uint8 e
  | .vrdUint16 e => encodeFormatV 0x3 .uint16 e
  | .vrdInt16 e => encodeFormatV 0x3 .int16 e
  | .vrdUint32 e => encodeFormatV 0x3 .uint32 e
  | .vrdFloat32 e => encodeFormatV 0x3 .float32 e
  | .vrdEnum8 e => encodeFormatV 0x3 .enum8 e
  | .vrdBitfield8 e => encodeFormatV 0x3 .bitfield8 e
  | .vwrUint8 e => encodeFormatV 0x4 .uint8 e
  | .vwrUint16 e => encodeFormatV 0x4 .uint16 e
  | .vwrInt16 e => encodeFormatV 0x4 .int16 e
  | .vwrUint32 e => encodeFormatV 0x4 .uint32 e
  | .vwrFloat32 e => encodeFormatV 0x4 .float32 e
  | .vwrEnum8 e => encodeFormatV 0x4 .enum8 e
  | .vwrBitfield8 e => encodeFormatV 0x4 .bitfield8 e

/-! ## Opcode table -/

/-- A row of the opcode map of R59. -/
structure OpcodeRow where
  mnemonic : String
  pattern : Word
  mask : Word
  deriving DecidableEq, Repr

/-- The 16 rows of R59, in the table's order: `pattern` is the column "match". -/
def opcodeTable : List OpcodeRow :=
  [ ⟨"CRC.INIT", 0x10000000, 0xFFFFFFFF⟩
  , ⟨"CRC.BYTE", 0x20000000, 0xFFFFFF00⟩
  , ⟨"VRD.uint8", 0x30000000, 0xFFFFFEFF⟩
  , ⟨"VRD.uint16", 0x30000001, 0xFFFFFEFF⟩
  , ⟨"VRD.int16", 0x30000002, 0xFFFFFEFF⟩
  , ⟨"VRD.uint32", 0x30000003, 0xFFFFFEFF⟩
  , ⟨"VRD.float32", 0x30000004, 0xFFFFFEFF⟩
  , ⟨"VRD.enum8", 0x30000005, 0xFFFFFEFF⟩
  , ⟨"VRD.bitfield8", 0x30000006, 0xFFFFFEFF⟩
  , ⟨"VWR.uint8", 0x40000000, 0xFFFFFEFF⟩
  , ⟨"VWR.uint16", 0x40000001, 0xFFFFFEFF⟩
  , ⟨"VWR.int16", 0x40000002, 0xFFFFFEFF⟩
  , ⟨"VWR.uint32", 0x40000003, 0xFFFFFEFF⟩
  , ⟨"VWR.float32", 0x40000004, 0xFFFFFEFF⟩
  , ⟨"VWR.enum8", 0x40000005, 0xFFFFFEFF⟩
  , ⟨"VWR.bitfield8", 0x40000006, 0xFFFFFEFF⟩ ]

/-- R59: "A word w spells command c exactly when (w & mask_c) = match_c." -/
def OpcodeRow.spelledBy (r : OpcodeRow) (w : Word) : Bool :=
  w &&& r.mask == r.pattern

/-- The mnemonic of a command, as the table spells it (R59). -/
def Instr.mnemonic : Instr → String
  | .crcInit => "CRC.INIT"
  | .crcByte _ => "CRC.BYTE"
  | .vrdUint8 _ => "VRD.uint8"
  | .vrdUint16 _ => "VRD.uint16"
  | .vrdInt16 _ => "VRD.int16"
  | .vrdUint32 _ => "VRD.uint32"
  | .vrdFloat32 _ => "VRD.float32"
  | .vrdEnum8 _ => "VRD.enum8"
  | .vrdBitfield8 _ => "VRD.bitfield8"
  | .vwrUint8 _ => "VWR.uint8"
  | .vwrUint16 _ => "VWR.uint16"
  | .vwrInt16 _ => "VWR.int16"
  | .vwrUint32 _ => "VWR.uint32"
  | .vwrFloat32 _ => "VWR.float32"
  | .vwrEnum8 _ => "VWR.enum8"
  | .vwrBitfield8 _ => "VWR.bitfield8"

/-- The seven kinds in K order (R55). -/
def allKinds : List Kind :=
  [.uint8, .uint16, .int16, .uint32, .float32, .enum8, .bitfield8]

/-- Every legal command, once (R64): 1 + 256 + 14 + 14 terms. -/
def allInstrs : List Instr :=
  [.crcInit]
    ++ (List.range 256).map (fun b => .crcByte (BitVec.ofNat 8 b))
    ++ allKinds.flatMap (fun k => [Instr.vrd k .little, Instr.vrd k .big])
    ++ allKinds.flatMap (fun k => [Instr.vwr k .little, Instr.vwr k .big])

end Sys2Proof
end

