-- ==== Sys2Proof/Machine/State.lean ====
section
/-! DEFINITION. The state of the block (spec/10_state.md R16), the events at its port, the reasons a step stops, and
the state after reset (R29). -/

namespace Sys2Proof.Machine

/-- What can happen at the block's port: an access by the client (R11, R31) or a change of the `rst` input (R111).
`off` is the byte offset from BASE inside the 64-byte window, `size` the width of the access in bytes. Every offset
and size can occur, so that an access outside the contract (R33) is an event too; the value of a write is the number
on the 32-bit data path. -/
inductive Event where
  | read (off : BitVec 6) (size : Nat)
  | write (off : BitVec 6) (size : Nat) (v : Word)
  | setRst (level : Bool)
  deriving DecidableEq, Repr

/-- Faults of the machine: none. The block's one exceptional event, IllegalCommand, is a next state with STATUS.ILL
set (R96 to R98), and no command and no access of a slot raises anything else. -/
inductive Fault
  deriving DecidableEq, Repr

/-- Why the machine refuses to go on. -/
inductive Refusal where
  /-- Raised by `exec` for a command without a meaning; no arm of this model raises it. Safe. -/
  | notModelled (mnemonic : String)
  /-- Raised by `step` for an access made while `rst` is asserted (R99, R111: "a model refuses it"). Safe. -/
  | accessDuringReset
  /-- Raised by `step` for an access that is not 32 bits wide (R33: "A model must refuse it"). Safe. -/
  | widthNot32
  /-- Raised by `step` for a 32-bit access with `off[1:0]` not 0 (R33: "A model must refuse it"). Safe. -/
  | misaligned
  deriving DecidableEq, Repr

/-- The state: the registers of R16 under the spec's names, the level of the `rst` input (R111), and two fields of
the model's own, the client's side of the port. -/
structure State where
  /-- DATA, the operand of VWR.* (R18). -/
  data : Word
  /-- RESULT, the value of the last legal VRD.* (R19). -/
  result : Word
  /-- CRC, the 16-bit accumulator (R20). -/
  crc : Half
  /-- STATUS.ILL (R21, R22). -/
  ill : Bool
  /-- STATUS.RV (R21, R23). -/
  rv : Bool
  /-- STATUS.KIND, the K field of the last legal VRD.* (R21, R23). -/
  kind : BitVec 3
  /-- WIN0, byte 0 of the window (R25). -/
  win0 : Byte
  /-- WIN1, byte 1 of the window (R25). -/
  win1 : Byte
  /-- WIN2, byte 2 of the window (R25). -/
  win2 : Byte
  /-- WIN3, byte 3 of the window (R25). -/
  win3 : Byte
  /-- The level of the reset input: true while `rst` is asserted (R111). -/
  rst : Bool
  /-- MODEL: what will reach the port, in arrival order (R45). DESIGN CHOICE, log entry 1. -/
  pending : List Event
  /-- MODEL: what the client's reads returned, oldest first. DESIGN CHOICE, log entry 2. -/
  replies : List Word
  deriving DecidableEq, Repr

/-- The machine right after reset: the table of R29, `rst` deasserted (R111), and nothing at the port
(DESIGN CHOICE, log entries 1 and 2). -/
def State.reset : State where
  data := 0x00000000
  result := 0x00000000
  crc := 0xFFFF
  ill := false
  rv := false
  kind := 0b000
  win0 := 0x00
  win1 := 0x00
  win2 := 0x00
  win3 := 0x00
  rst := false
  pending := []
  replies := []

/-- The three outcomes of a step of this machine. -/
abbrev Result := Host.Outcome State Fault Refusal

end Sys2Proof.Machine
end

