-- ==== Sys2Proof/Machine/Operands.lean ====
section
/-! DEFINITION. Operand access: bit fields, extension, and the value window in both byte orders
(spec/40_value_read.md R68, spec/41_value_write.md R78, spec/20_memory.md R39 to R42). -/

namespace Sys2Proof.Machine

/-- `zext_32(v)` (R10). -/
def zext32 {n : Nat} (v : BitVec n) : Word := v.setWidth 32

/-- `sext_32(v)`: v's top bit is its sign (R10). -/
def sext32 {n : Nat} (v : BitVec n) : Word := v.signExtend 32

/-- `v[8i+7 : 8i]`, byte i of a word (R10). -/
def byteOf (v : Word) (i : Nat) : Byte := v.extractLsb' (8 * i) 8

/-- `v[15:0]` (R10). -/
def lowHalf (v : Word) : Half := v.extractLsb' 0 16

/-- `v[7:0]` of a 16-bit number (R10). -/
def halfLow (v : Half) : Byte := v.extractLsb' 0 8

/-- `v[15:8]` of a 16-bit number (R10). -/
def halfHigh (v : Half) : Byte := v.extractLsb' 8 8

/-- `WinVal(1, E)`: E is ignored (R42, R68). -/
def winVal1 (_e : Endian) (s : State) : Byte := s.win0

/-- `WinVal(2, E)` (R68). The BigEndian byte positions are R41's. -/
def winVal2 (e : Endian) (s : State) : Half :=
  match e with
  | .little => s.win1 ++ s.win0
  | .big => s.win0 ++ s.win1

/-- `WinVal(4, E)` (R68). -/
def winVal4 (e : Endian) (s : State) : Word :=
  match e with
  | .little => s.win3 ++ s.win2 ++ s.win1 ++ s.win0
  | .big => s.win0 ++ s.win1 ++ s.win2 ++ s.win3

/-- `SetWin(1, E, v)`: E is ignored (R78). -/
def setWin1 (_e : Endian) (v : Byte) (s : State) : State :=
  { s with win0 := v }

/-- `SetWin(2, E, v)`: WIN2 and WIN3 keep their values (R78). -/
def setWin2 (e : Endian) (v : Half) (s : State) : State :=
  match e with
  | .little => { s with win0 := halfLow v, win1 := halfHigh v }
  | .big => { s with win0 := halfHigh v, win1 := halfLow v }

/-- `SetWin(4, E, v)` (R78). -/
def setWin4 (e : Endian) (v : Word) (s : State) : State :=
  match e with
  | .little => { s with win0 := byteOf v 0, win1 := byteOf v 1, win2 := byteOf v 2, win3 := byteOf v 3 }
  | .big => { s with win0 := byteOf v 3, win1 := byteOf v 2, win2 := byteOf v 1, win3 := byteOf v 0 }

end Sys2Proof.Machine
end

