-- ==== Sys2Proof/Machine/Flags.lean ====
section
/-! DEFINITION. The STATUS register: how it reads, and the one flag computation, that of a legal VRD
(spec/10_state.md R21 to R23). -/

namespace Sys2Proof.Machine

/-- The 32-bit STATUS word: bit 0 ILL, bit 1 RV, bits 4:2 KIND, bits 31:5 read as 0 (R21, R32). -/
def statusWord (s : State) : Word :=
  zext32 (s.kind ++ BitVec.ofBool s.rv ++ BitVec.ofBool s.ill)

/-- The flags a legal VRD of kind k writes: RV := 1, KIND := k's code (R23). ILL is not touched. -/
def recordKind (k : Kind) (s : State) : State :=
  { s with rv := true, kind := k.code }

/-- The tag of RESULT, which follows from KIND; none while RV = 0, when KIND means nothing (R23). -/
def resultTag (s : State) : Option Tag :=
  if s.rv then (Kind.ofCode? s.kind).map Kind.tag else none

end Sys2Proof.Machine
end

