-- ==== Sys2Proof/Machine/Ops.lean ====
section
/-! DEFINITION. The shared operations: the register map, the interface contract, the end of a read command,
IllegalCommand, and reset. -/

namespace Sys2Proof.Machine

/-! ## The register map (spec/20_memory.md R32) -/

/-- The offset of a named slot (R32). -/
def slotOffset : Slot → BitVec 6
  | .cmd => 0x00
  | .data => 0x04
  | .result => 0x08
  | .crc => 0x0C
  | .status => 0x10
  | .win0 => 0x14
  | .win1 => 0x18
  | .win2 => 0x1C
  | .win3 => 0x20

/-- The slot at an offset of an aligned access; none for the reserved slots 0x24..0x3C (R32). -/
def slotAt (off : BitVec 6) : Option Slot :=
  if off = 0x00 then some .cmd
  else if off = 0x04 then some .data
  else if off = 0x08 then some .result
  else if off = 0x0C then some .crc
  else if off = 0x10 then some .status
  else if off = 0x14 then some .win0
  else if off = 0x18 then some .win1
  else if off = 0x1C then some .win2
  else if off = 0x20 then some .win3
  else none

/-- What a read of a slot returns: the "read returns" column of R32. A reserved slot and CMD read 0 (R17, R34). -/
def readSlot (sl : Option Slot) (s : State) : Word :=
  match sl with
  | none => 0
  | some .cmd => 0
  | some .data => s.data
  | some .result => s.result
  | some .crc => zext32 s.crc
  | some .status => statusWord s
  | some .win0 => zext32 s.win0
  | some .win1 => zext32 s.win1
  | some .win2 => zext32 s.win2
  | some .win3 => zext32 s.win3

/-- The 32-bit number that an aligned access at `off` reads: the client's one view of the block (R32). -/
def readAt (off : BitVec 6) (s : State) : Word := readSlot (slotAt off) s

/-- What a write to a slot other than CMD does: the "write does" column of R32. RESULT, CRC, STATUS and the reserved
slots ignore it; WINi takes `v[7:0]` (R18 to R21, R25, R34). The CMD arm is not used: a write to CMD executes. -/
def storeSlot (sl : Option Slot) (v : Word) (s : State) : State :=
  match sl with
  | none => s
  | some .cmd => s
  | some .data => { s with data := v }
  | some .result => s
  | some .crc => s
  | some .status => s
  | some .win0 => { s with win0 := byteOf v 0 }
  | some .win1 => { s with win1 := byteOf v 0 }
  | some .win2 => { s with win2 := byteOf v 0 }
  | some .win3 => { s with win3 := byteOf v 0 }

/-! ## The interface contract -/

/-- Why an access is outside the interface contract, if it is (R33, R99, R111). Which name is given when several
hold is the model's: DESIGN CHOICE, log entry 5. -/
def accessRefusal? (rst : Bool) (off : BitVec 6) (size : Nat) : Option Refusal :=
  if rst then some .accessDuringReset
  else if size ≠ 4 then some .widthNot32
  else if off.extractLsb' 0 2 ≠ 0 then some .misaligned
  else none

/-! ## Commands -/

/-- How a VRD of kind k ends: RESULT := the decoded value, RV := 1, KIND := k, in one step (R23, R68). -/
def completeRead (k : Kind) (v : Word) (s : State) : State :=
  recordKind k { s with result := v }

/-- `raise IllegalCommand(w)`: ILL := 1 and no other change (R97). It is the block's whole exception entry: nothing is
saved, no mode changes, no control is transferred (R102), and there is no return from it (R103). The word is not
recorded, so the operation does not take it. -/
def raiseIllegalCommand (s : State) : State :=
  { s with ill := true }

/-! ## Reset -/

/-- Every register at its reset value (R29); the port is not the block's and keeps what it holds. -/
def resetRegisters (s : State) : State :=
  { State.reset with rst := s.rst, pending := s.pending, replies := s.replies }

/-- The `rst` input takes a level (R111). Asserting it sets every register to its reset value; deasserting it leaves
the block in the reset state; a low level that was low changes nothing. -/
def driveRst (level : Bool) (s : State) : State :=
  if level || s.rst then { resetRegisters s with rst := level } else s

/-- A step in which nothing reaches the port: the block has no step of its own (R15), and while `rst` is asserted it
sets every register to its reset value (R111). -/
def idle (s : State) : State :=
  if s.rst then resetRegisters s else s

/-! ## The client's side of the port -/

/-- The head event has been taken from the port. -/
def takeEvent (s : State) : State :=
  { s with pending := s.pending.tail }

/-- A read returns its value to the client. -/
def reply (v : Word) (s : State) : State :=
  { s with replies := s.replies ++ [v] }

/-- One more event arrives, after all that arrived before it (R45). -/
def enqueue (e : Event) (s : State) : State :=
  { s with pending := s.pending ++ [e] }

end Sys2Proof.Machine
end

