-- ==== Sys2Proof/Machine/Crc.lean ====
section
/-! DEFINITION. The CRC unit: CRC.INIT, CRC.BYTE, and the checksum of a byte sequence (spec/45_crc16.md R89 to R91). -/

namespace Sys2Proof.Machine

/-- The initial value of the accumulator (R8, R89). -/
def crcInitial : Half := 0xFFFF

/-- The polynomial constant, as the right-shifting loop XORs it (R8, R90). -/
def crcPolynomial : Half := 0xA001

/-- One of the 8 iterations of R90. The shift is logical (D32). -/
def crcShift (a : Half) : Half :=
  if a.getLsbD 0 then (a >>> 1) ^^^ crcPolynomial else a >>> 1

/-- n iterations of R90's loop. -/
def crcShifts : Nat → Half → Half
  | 0, a => a
  | n + 1, a => crcShifts n (crcShift a)

/-- `CRC_BYTE_value(a, b)`: the accumulator update of R90. -/
def crcByteValue (a : Half) (b : Byte) : Half :=
  crcShifts 8 (a ^^^ b.setWidth 16)

/-- `CRC16(m)`: the checksum of a byte sequence; no final XOR, no reflection (R91). -/
def crc16 (m : List Byte) : Half :=
  m.foldl crcByteValue crcInitial

/-- CRC.INIT (R89). -/
def execCrcInit (s : State) : Result :=
  .next { s with crc := crcInitial }

/-- CRC.BYTE b (R90). -/
def execCrcByte (b : Byte) (s : State) : Result :=
  .next { s with crc := crcByteValue s.crc b }

end Sys2Proof.Machine
end

