-- ==== Sys2Proof/Machine/ValueRead.lean ====
section
/-! DEFINITION. The read commands of the value codec, VRD.* (spec/40_value_read.md R68 to R75). -/

namespace Sys2Proof.Machine

/-- VRD.uint8 (R69). -/
def execVrdUint8 (e : Endian) (s : State) : Result :=
  .next (completeRead .uint8 (zext32 (winVal1 e s)) s)

/-- VRD.uint16 (R70). -/
def execVrdUint16 (e : Endian) (s : State) : Result :=
  .next (completeRead .uint16 (zext32 (winVal2 e s)) s)

/-- VRD.int16 (R71): the value's 32-bit two's-complement form. -/
def execVrdInt16 (e : Endian) (s : State) : Result :=
  .next (completeRead .int16 (sext32 (winVal2 e s)) s)

/-- VRD.uint32 (R72). -/
def execVrdUint32 (e : Endian) (s : State) : Result :=
  .next (completeRead .uint32 (winVal4 e s) s)

/-- VRD.float32 (R73): the bit pattern, with no conversion. -/
def execVrdFloat32 (e : Endian) (s : State) : Result :=
  .next (completeRead .float32 (winVal4 e s) s)

/-- VRD.enum8 (R74). -/
def execVrdEnum8 (e : Endian) (s : State) : Result :=
  .next (completeRead .enum8 (zext32 (winVal1 e s)) s)

/-- VRD.bitfield8 (R75). -/
def execVrdBitfield8 (e : Endian) (s : State) : Result :=
  .next (completeRead .bitfield8 (zext32 (winVal1 e s)) s)

end Sys2Proof.Machine
end

