-- ==== Sys2Proof/Machine/ValueWrite.lean ====
section
/-! DEFINITION. The write commands of the value codec, VWR.* (spec/41_value_write.md R78 to R86). No flag is written and
no bit of DATA above the width is looked at. -/

namespace Sys2Proof.Machine

/-- VWR.uint8 (R79). -/
def execVwrUint8 (e : Endian) (s : State) : Result :=
  .next (setWin1 e (byteOf s.data 0) s)

/-- VWR.uint16 (R80). -/
def execVwrUint16 (e : Endian) (s : State) : Result :=
  .next (setWin2 e (lowHalf s.data) s)

/-- VWR.int16 (R81): the value modulo 2^16. -/
def execVwrInt16 (e : Endian) (s : State) : Result :=
  .next (setWin2 e (lowHalf s.data) s)

/-- VWR.uint32 (R82). -/
def execVwrUint32 (e : Endian) (s : State) : Result :=
  .next (setWin4 e s.data s)

/-- VWR.float32 (R83): the pattern is copied bit for bit. -/
def execVwrFloat32 (e : Endian) (s : State) : Result :=
  .next (setWin4 e s.data s)

/-- VWR.enum8 (R84). -/
def execVwrEnum8 (e : Endian) (s : State) : Result :=
  .next (setWin1 e (byteOf s.data 0) s)

/-- VWR.bitfield8 (R85). -/
def execVwrBitfield8 (e : Endian) (s : State) : Result :=
  .next (setWin1 e (byteOf s.data 0) s)

end Sys2Proof.Machine
end

