-- ==== Sys2Proof/Machine/Dispatch.lean ====
section
/-! DEFINITION. Each command to its meaning (spec/30_encoding.md R58, R59). -/

namespace Sys2Proof.Machine

def exec (i : Instr) (s : State) : Host.Outcome State Fault Refusal :=
  match i with
  | .crcInit => Sys2Proof.Machine.execCrcInit s
  | .crcByte b => Sys2Proof.Machine.execCrcByte b s
  | .vrdUint8 e => Sys2Proof.Machine.execVrdUint8 e s
  | .vrdUint16 e => Sys2Proof.Machine.execVrdUint16 e s
  | .vrdInt16 e => Sys2Proof.Machine.execVrdInt16 e s
  | .vrdUint32 e => Sys2Proof.Machine.execVrdUint32 e s
  | .vrdFloat32 e => Sys2Proof.Machine.execVrdFloat32 e s
  | .vrdEnum8 e => Sys2Proof.Machine.execVrdEnum8 e s
  | .vrdBitfield8 e => Sys2Proof.Machine.execVrdBitfield8 e s
  | .vwrUint8 e => Sys2Proof.Machine.execVwrUint8 e s
  | .vwrUint16 e => Sys2Proof.Machine.execVwrUint16 e s
  | .vwrInt16 e => Sys2Proof.Machine.execVwrInt16 e s
  | .vwrUint32 e => Sys2Proof.Machine.execVwrUint32 e s
  | .vwrFloat32 e => Sys2Proof.Machine.execVwrFloat32 e s
  | .vwrEnum8 e => Sys2Proof.Machine.execVwrEnum8 e s
  | .vwrBitfield8 e => Sys2Proof.Machine.execVwrBitfield8 e s

end Sys2Proof.Machine
end

