-- ==== Sys2Proof/Machine/Serve.lean ====
section
/-! DEFINITION. How the block serves what reaches its port: a command word (spec/30_encoding.md R58), an access
(spec/20_memory.md R32 to R37), a change of `rst` (spec/70_reset_and_hazards.md R111). -/

namespace Sys2Proof.Machine

/-- `Exec(w)`: a word that spells a command executes it; any other word raises IllegalCommand (R58, R63). -/
def execWord (w : Word) (s : State) : Result :=
  match decodeWord w with
  | .ok i => exec i s
  | .error _ => .next (raiseIllegalCommand s)

/-- An aligned 32-bit write at `off`: a write to CMD executes the word and stores nothing (R17, R32). -/
def writeAt (off : BitVec 6) (v : Word) (s : State) : Result :=
  match slotAt off with
  | some .cmd => execWord v s
  | sl => .next (storeSlot sl v s)

/-- One event, whole, before the next (R12, R37, R45). An access outside the contract is refused: no value is returned
or written (R33). -/
def serve (e : Event) (s : State) : Result :=
  match e with
  | .read off size =>
    match accessRefusal? s.rst off size with
    | some r => .refused r
    | none => .next (reply (readAt off s) s)
  | .write off size v =>
    match accessRefusal? s.rst off size with
    | some r => .refused r
    | none => writeAt off v s
  | .setRst level => .next (driveRst level s)

/-- What a step does: it serves the oldest event at the port, or idles when there is none. -/
def serveNext (s : State) : Result :=
  match s.pending with
  | [] => .next (idle s)
  | e :: _ => serve e (takeEvent s)

/-- The port event by which the client issues a command word: one aligned 32-bit write to CMD (R51). -/
def commandEvent (w : Word) : Event :=
  .write (slotOffset .cmd) 4 w

/-- `s` with a command word as the next thing to reach the port, and `rst` deasserted, which serving it needs (R111).
The bits above `nbits` are 0. -/
def placeCommand (s : State) (nbits w : Nat) : State :=
  { s with rst := false, pending := commandEvent (BitVec.ofNat 32 (w % 2 ^ nbits)) :: s.pending }

end Sys2Proof.Machine
end

