-- ==== Sys2Proof/Machine/Step.lean ====
section
/-! DEFINITION. One step of the machine, and where a command word is placed so that the next step runs it. -/

namespace Sys2Proof.Machine

/-- One step: the oldest event at the port is served whole (R12, R45). -/
def step (s : State) : Host.Outcome State Fault Refusal := serveNext s

/-- `s` with the command word as the next event at the port: the block fetches nothing, a command runs from the word
written to CMD at the moment of the write (R48). DESIGN CHOICE, log entry 10. -/
def State.withFetchWord (s : State) (nbits w : Nat) : State := placeCommand s nbits w

end Sys2Proof.Machine
end

