-- ==== Sys2Proof/Machine/Assembler.lean ====
section
/-! DEFINITION. The assembler of command mnemonics and the client-program lines, as text and as port events
(spec/30_encoding.md R65 to R67). What R65 to R67 leave open of the text (blanks, number forms) is log entry 13. -/

namespace Sys2Proof.Machine

/-! ## From assembler commands to words (R65) -/

/-- The command an assembler command stands for; none is an assembly error. A left-out order is `LE` (R65). -/
def assemble (c : AsmCommand) : Option Instr :=
  if c.wellFormed then
    some (match c with
      | .crcInit => .crcInit
      | .crcByte b => .crcByte (BitVec.ofNat 8 b)
      | .vrd k order => Instr.vrd k (order.getD .little)
      | .vwr k order => Instr.vwr k (order.getD .little))
  else none

/-! ## Text -/

/-- A word of text, or a comma. -/
inductive Token where
  | word (cs : List Char)
  | comma
  deriving DecidableEq, Repr

/-- The word collected so far, if any. -/
def flush (acc : List Char) : List Token :=
  if acc.isEmpty then [] else [.word acc]

/-- The tokens of a line: blanks separate words, a comma stands alone, `;` starts a comment (R66). -/
def lexFrom (acc : List Char) : List Char → List Token
  | [] => flush acc
  | c :: cs =>
    if c = ';' then flush acc
    else if c = ' ' then flush acc ++ lexFrom [] cs
    else if c = ',' then flush acc ++ .comma :: lexFrom [] cs
    else lexFrom (acc ++ [c]) cs

/-- The tokens of a line of text. -/
def lex (line : String) : List Token := lexFrom [] line.toList

/-- The value of a digit in a base up to 16; hex letters in either case. -/
def digit? (base : Nat) (c : Char) : Option Nat :=
  let n := c.toNat
  let d := if 48 ≤ n ∧ n ≤ 57 then n - 48
    else if 97 ≤ n ∧ n ≤ 102 then n - 87
    else if 65 ≤ n ∧ n ≤ 70 then n - 55
    else 16
  if d < base then some d else none

/-- The number that digits spell, after those of `acc`. -/
def digitsFrom (base : Nat) (acc : Nat) : List Char → Option Nat
  | [] => some acc
  | c :: cs => (digit? base c).bind fun d => digitsFrom base (acc * base + d) cs

/-- An integer "in decimal or `0x` hex" (R65). -/
def number? (cs : List Char) : Option Nat :=
  match cs with
  | [] => none
  | ['0', 'x'] => none
  | '0' :: 'x' :: ds => digitsFrom 16 0 ds
  | ds => digitsFrom 10 0 ds

/-- The name of a kind (R65). -/
def kindName : Kind → String
  | .uint8 => "uint8"
  | .uint16 => "uint16"
  | .int16 => "int16"
  | .uint32 => "uint32"
  | .float32 => "float32"
  | .enum8 => "enum8"
  | .bitfield8 => "bitfield8"

/-- The name of a byte order (R65). -/
def orderName : Endian → String
  | .little => "LE"
  | .big => "BE"

/-- The name of a slot (R66). -/
def slotName : Slot → String
  | .cmd => "CMD"
  | .data => "DATA"
  | .result => "RESULT"
  | .crc => "CRC"
  | .status => "STATUS"
  | .win0 => "WIN0"
  | .win1 => "WIN1"
  | .win2 => "WIN2"
  | .win3 => "WIN3"

/-- The nine slots (R66). -/
def allSlots : List Slot :=
  [.cmd, .data, .result, .crc, .status, .win0, .win1, .win2, .win3]

/-- The kind whose mnemonic `op`.kind these characters are, letter for letter (R65: case-sensitive). -/
def kindOf? (op : String) (cs : List Char) : Option Kind :=
  allKinds.find? fun k => cs = op.toList ++ '.' :: (kindName k).toList

/-- The byte order these characters name (R65). -/
def order? (cs : List Char) : Option Endian :=
  [Endian.little, .big].find? fun e => cs = (orderName e).toList

/-- The slot these characters name (R66). -/
def slot? (cs : List Char) : Option Slot :=
  allSlots.find? fun sl => cs = (slotName sl).toList

/-- A VRD or VWR command in text, with or without its order (R65). -/
def parseValue (m : List Char) (order : Option Endian) : Option AsmCommand :=
  ((kindOf? "VRD" m).map (AsmCommand.vrd · order)).or
    ((kindOf? "VWR" m).map (AsmCommand.vwr · order))

/-- A command mnemonic with its operand (R65). -/
def parseCommand (ts : List Token) : Option AsmCommand :=
  match ts with
  | [.word m] => if m = "CRC.INIT".toList then some .crcInit else parseValue m none
  | [.word m, .word x] =>
    if m = "CRC.BYTE".toList then (number? x).map .crcByte
    else (order? x).bind fun e => parseValue m (some e)
  | _ => none

/-- A number that fits a 32-bit access. -/
def word? (cs : List Char) : Option Word :=
  (number? cs).bind fun n => if n < 2 ^ 32 then some (BitVec.ofNat 32 n) else none

/-- Operands separated by single commas; an empty list of tokens has none. -/
def operands {α : Type} (f : List Char → Option α) : List Token → Option (List α)
  | [] => some []
  | [.word cs] => (f cs).map fun a => [a]
  | .word cs :: .comma :: t :: ts => (f cs).bind fun a => (operands f (t :: ts)).map (a :: ·)
  | _ => none

/-- A line of a client program (R66, R67). A line without tokens is empty or holds a comment alone. A value written to CMD may be a command; the value a read returned may be
shown after `->` and is not part of the access. -/
def parseTokens (ts : List Token) : Option ClientLine :=
  match ts with
  | [] => some .comment
  | [.word m] =>
    if m = "CRC.SER".toList then some .crcSer
    else if m = "CRC.BYTES".toList then some (.crcBytes [])
    else if m = "CRC.OVER".toList then some (.crcOver [])
    else none
  | [.word m, .word sl, .word arrow, .word _] =>
    if m = "R".toList ∧ arrow = "->".toList then (slot? sl).map .read else none
  | .word m :: .word x :: ts =>
    if m = "R".toList ∧ ts = [] then (slot? x).map .read
    else if m = "C".toList then (parseCommand (.word x :: ts)).map .command
    else if m = "PUT".toList ∧ ts = [] then (word? x).map .put
    else if m = "CRC.BYTES".toList then (operands number? (.word x :: ts)).map .crcBytes
    else if m = "CRC.OVER".toList then (operands number? (.word x :: ts)).map .crcOver
    else if m = "LOADWIN".toList then (operands word? (.word x :: ts)).map .loadWin
    else if m = "W".toList then
      match ts with
      | .comma :: vs =>
        match vs with
        | [.word v] =>
          match word? v with
          | some n => (slot? x).map (.write · n)
          | none => if slot? x = some .cmd then (parseCommand vs).map .writeCommand else none
        | _ => if slot? x = some .cmd then (parseCommand vs).map .writeCommand else none
      | _ => none
    else none
  | _ => none

/-- The command word a line of assembler text encodes to (R65); none is an assembly error. -/
def assembleText (line : String) : Option Word :=
  ((parseCommand (lex line)).bind assemble).map encode

/-- A line of client text; none is an error. -/
def parseLine (line : String) : Option ClientLine :=
  (parseTokens (lex line)).bind fun l => if l.wellFormed then some l else none

/-- A client program, line by line (R66); none if a line is an error. -/
def parseProgram : List String → Option (List ClientLine)
  | [] => some []
  | line :: lines => (parseLine line).bind fun l => (parseProgram lines).map (l :: ·)

/-- The assembler text of a command, operands in full (R65). -/
def disassemble : Instr → String
  | .crcInit => "CRC.INIT"
  | .crcByte b => "CRC.BYTE " ++ Nat.repr b.toNat
  | .vrdUint8 e => "VRD.uint8 " ++ orderName e
  | .vrdUint16 e => "VRD.uint16 " ++ orderName e
  | .vrdInt16 e => "VRD.int16 " ++ orderName e
  | .vrdUint32 e => "VRD.uint32 " ++ orderName e
  | .vrdFloat32 e => "VRD.float32 " ++ orderName e
  | .vrdEnum8 e => "VRD.enum8 " ++ orderName e
  | .vrdBitfield8 e => "VRD.bitfield8 " ++ orderName e
  | .vwrUint8 e => "VWR.uint8 " ++ orderName e
  | .vwrUint16 e => "VWR.uint16 " ++ orderName e
  | .vwrInt16 e => "VWR.int16 " ++ orderName e
  | .vwrUint32 e => "VWR.uint32 " ++ orderName e
  | .vwrFloat32 e => "VWR.float32 " ++ orderName e
  | .vwrEnum8 e => "VWR.enum8 " ++ orderName e
  | .vwrBitfield8 e => "VWR.bitfield8 " ++ orderName e

/-! ## From client lines to port events (R66, R67) -/

/-- `W <slot>, <value>` (R66). -/
def writeEvent (sl : Slot) (v : Word) : Event := .write (slotOffset sl) 4 v

/-- `R <slot>` (R66). -/
def readEvent (sl : Slot) : Event := .read (slotOffset sl) 4

/-- `C <command>` expands to `W CMD, <command>` (R67). -/
def commandEvents (c : AsmCommand) : Option (List Event) :=
  (assemble c).map fun i => [commandEvent (encode i)]

/-- `CRC.BYTES b0, ..., bn`: one CRC.BYTE a byte, in order (R67). -/
def crcBytesEvents (bs : List Byte) : List Event :=
  bs.map fun b => commandEvent (encode (.crcByte b))

/-- `CRC.OVER b0, ..., bn`: CRC.INIT, then the bytes (R67). It is a session as R91 runs it, which ends at the last
CRC.BYTE; R13's term has a read of CRC after it. DESIGN CHOICE, log entry 19: without that read. -/
def crcOverEvents (bs : List Byte) : List Event :=
  commandEvent (encode .crcInit) :: crcBytesEvents bs

/-- A session with the closing read of CRC that R13's term includes (log entry 19). -/
def sessionWithReadEvents (bs : List Byte) : List Event :=
  crcOverEvents bs ++ [readEvent .crc]

/-- `CRC.SER` when its read of CRC gave `c` (R67). -/
def crcSerEvents (c : Word) : List Event :=
  [readEvent .crc, writeEvent .data c, commandEvent (encode (.vwrUint16 .big))]

/-- The port events of a client line (R66, R67), none of them for a comment; none is an error. `c` is what a read of CRC returns where the line
runs: CRC.SER alone writes back what it read. -/
def expand (c : Word) (l : ClientLine) : Option (List Event) :=
  if l.wellFormed then
    match l with
    | .comment => some []
    | .write sl v => some [writeEvent sl v]
    | .writeCommand a => commandEvents a
    | .read sl => some [readEvent sl]
    | .command a => commandEvents a
    | .crcBytes bs => some (crcBytesEvents (bs.map (BitVec.ofNat 8)))
    | .crcOver bs => some (crcOverEvents (bs.map (BitVec.ofNat 8)))
    | .loadWin bs => some (([Slot.win0, .win1, .win2, .win3].zip bs).map fun p => writeEvent p.1 p.2)
    | .put v => some [writeEvent .data v]
    | .crcSer => some (crcSerEvents c)
  else none

/-- The port events of a line of client text; none is an error. `c` is as in `expand`. -/
def lineEvents (c : Word) (line : String) : Option (List Event) :=
  (parseLine line).bind (expand c)

end Sys2Proof.Machine
end

