-- ==== Sys2Proof/Config.lean ====
section
/-! DEFINITION. The two open parameters of spec/00_scope.md R9: the window's base address and the time of an access. -/

namespace Sys2Proof

/-- `BASE`: where the host places the register window. R9: a multiple of 64, so only the number of the 64-byte line
is held. The model takes it as an argument, never as a constant, so a claim holds for every base (D3). -/
structure Base where
  line : Nat
  deriving DecidableEq, Repr

/-- The byte address of offset 0 of the window (R9). -/
def Base.address (b : Base) : Nat := 64 * b.line

/-- `T_ACCESS`: the time one bus access takes (R9, R120), in a unit the spec does not name: DESIGN CHOICE, log entry 7.
The model takes it as an argument, so a claim holds for every access time, and no rule of the block reads it (D24). -/
abbrev AccessTime := Nat

end Sys2Proof
end

