-- ==== Sys2Proof/Machine/Bus.lean ====
section
/-! DEFINITION. The host's side of the port: which host addresses reach a block (spec/20_memory.md R31, R50; S4), a
platform with several blocks (spec/60_exceptions.md R108), and the time accesses take (spec/70_reset_and_hazards.md R120). -/

namespace Sys2Proof.Machine

/-- The offset in the window that a host byte address selects; none for an address outside the 64 bytes at BASE, which
is not an access to the block (R31, S4). -/
def portOffset? (base : Base) (addr : Nat) : Option (BitVec 6) :=
  if base.address ≤ addr ∧ addr < base.address + 64 then some (BitVec.ofNat 6 (addr - base.address)) else none

/-- An access by the host bus master, at a host byte address. -/
inductive BusAccess where
  | read (addr size : Nat)
  | write (addr size : Nat) (v : Word)
  deriving DecidableEq, Repr

/-- The event a host access is at the port of the block at `base`, if it reaches it. -/
def busEvent? (base : Base) : BusAccess → Option Event
  | .read addr size => (portOffset? base addr).map (Event.read · size)
  | .write addr size v => (portOffset? base addr).map (Event.write · size v)

/-- One block of a platform: its base and its own state (R108). -/
structure PlatformBlock where
  base : Base
  state : State
  deriving DecidableEq, Repr

/-- A host access on a platform arrives at the port of the blocks whose window it selects (R108: each has its own
state, and they share nothing). -/
def deliver (a : BusAccess) (p : List PlatformBlock) : List PlatformBlock :=
  p.map fun b =>
    match busEvent? b.base a with
    | some e => { b with state := enqueue e b.state }
    | none => b

/-- How many client accesses a list of events holds; a change of `rst` is none. -/
def accessCount (es : List Event) : Nat :=
  es.countP fun e => match e with
    | .read _ _ => true
    | .write _ _ _ => true
    | .setRst _ => false

/-- The bus time of the accesses on a platform whose access time is `tAccess`: each is one transaction of that duration
(R9, R120). -/
def busTime (tAccess : AccessTime) (es : List Event) : Nat := accessCount es * tAccess

end Sys2Proof.Machine
end

