-- ==== Sys2Proof/Machine/Float32.lean ====
section
/-! DEFINITION. `Float32(p)`, the value of a binary32 pattern (spec/40_value_read.md R76). The block computes nothing
with it; it gives RESULT and DATA their numeric meaning. -/

namespace Sys2Proof.Machine

/-- The value of a binary32 pattern. The sign of a finite value is kept beside its magnitude, so that +0 and -0 are
distinct (R73). -/
inductive Float32Value where
  | nan
  | infinity (negative : Bool)
  | finite (negative : Bool) (magnitude : Rat)
  deriving DecidableEq, Repr

/-- s = p[31] (R76). -/
def float32Sign (p : Word) : Bool := p.getLsbD 31

/-- e = p[30:23] (R76). -/
def float32Exponent (p : Word) : Nat := (p.extractLsb' 23 8).toNat

/-- f = p[22:0] (R76). -/
def float32Fraction (p : Word) : Nat := (p.extractLsb' 0 23).toNat

/-- `Float32(p)`, the four cases of R76. -/
def float32Value (p : Word) : Float32Value :=
  let e := float32Exponent p
  let f := float32Fraction p
  if e = 0xFF then
    if f = 0 then .infinity (float32Sign p) else .nan
  else if e = 0 then
    .finite (float32Sign p) ((2 : Rat) ^ (-126 : Int) * ((f : Rat) / 2 ^ 23))
  else
    .finite (float32Sign p) ((2 : Rat) ^ ((e : Int) - 127) * (1 + (f : Rat) / 2 ^ 23))

end Sys2Proof.Machine
end

