-- ==== Sys2Proof/Safety.lean ====
section
/-! DEFINITION. What the claims are about: the invariant of the state, the events the interface contract allows, and
runs. -/

namespace Sys2Proof.Machine

/-- The contents RESULT may have under a KIND code: an unsigned kind's value zero-extended, int16's value
sign-extended, any pattern for the 32-bit kinds (R19). -/
def resultFits (kind : BitVec 3) (result : Word) : Prop :=
  match Kind.ofCode? kind with
  | none => False
  | some .uint8 => result.toNat < 2 ^ 8
  | some .uint16 => result.toNat < 2 ^ 16
  | some .int16 => -2 ^ 15 ≤ result.toInt ∧ result.toInt < 2 ^ 15
  | some .uint32 => True
  | some .float32 => True
  | some .enum8 => result.toNat < 2 ^ 8
  | some .bitfield8 => result.toNat < 2 ^ 8

/-- Every register holds its reset value (R29). -/
def AtReset (s : State) : Prop := resetRegisters s = s

/-- What every state from reset on satisfies. KIND is a kind's code (R21: 0..6) and RESULT fits it (R19); while RV = 0
no VRD has run, so KIND and RESULT hold their reset values (R19, R23); while `rst` is asserted every register holds its
reset value (R111). -/
structure BlockInv (s : State) : Prop where
  result_fits : resultFits s.kind s.result
  before_first_read : s.rv = false → s.kind = 0 ∧ s.result = 0
  held_in_reset : s.rst = true → AtReset s

/-- The event is one the block serves while `rst` is at the given level: an aligned 32-bit access while it is
deasserted, or a change of `rst` (R33, R99, R111). -/
def Event.allowed (rst : Bool) : Event → Bool
  | .read off size => rst = false ∧ size = 4 ∧ off.extractLsb' 0 2 = 0
  | .write off size _ => rst = false ∧ size = 4 ∧ off.extractLsb' 0 2 = 0
  | .setRst _ => true

/-- The level of `rst` after the event. -/
def Event.rstAfter (rst : Bool) : Event → Bool
  | .read _ _ => rst
  | .write _ _ _ => rst
  | .setRst level => level

/-- Every event of the list is one the block serves when its turn comes (R33, R99, R111). -/
def inContract (rst : Bool) : List Event → Bool
  | [] => true
  | e :: es => e.allowed rst && inContract (e.rstAfter rst) es

/-- The event does not assert `rst`. -/
def Event.noReset : Event → Bool
  | .read _ _ => true
  | .write _ _ _ => true
  | .setRst level => !level

/-- The command word that an event writes to CMD, if it is an aligned 32-bit write there. -/
def Event.command? : Event → Option Word
  | .write off size v => if off = slotOffset .cmd ∧ size = 4 then some v else none
  | .read _ _ => none
  | .setRst _ => none

/-- The event writes an illegal word to CMD (R63, R97). -/
def Event.writesIllegal (e : Event) : Bool :=
  match e.command? with
  | none => false
  | some w => (decodeWord w).toOption.isNone

/-- The command that an event executes, if it writes a legal word to CMD. -/
def Event.instr? (e : Event) : Option Instr :=
  e.command?.bind fun w => (decodeWord w).toOption

/-- The three groups of commands (R52). -/
inductive CommandGroup where
  | crc
  | read
  | write
  deriving DecidableEq, Repr

/-- The group of a command (R52). -/
def commandGroup : Instr → CommandGroup
  | .crcInit => .crc
  | .crcByte _ => .crc
  | .vrdUint8 _ => .read
  | .vrdUint16 _ => .read
  | .vrdInt16 _ => .read
  | .vrdUint32 _ => .read
  | .vrdFloat32 _ => .read
  | .vrdEnum8 _ => .read
  | .vrdBitfield8 _ => .read
  | .vwrUint8 _ => .write
  | .vwrUint16 _ => .write
  | .vwrInt16 _ => .write
  | .vwrUint32 _ => .write
  | .vwrFloat32 _ => .write
  | .vwrEnum8 _ => .write
  | .vwrBitfield8 _ => .write

/-- The event executes a legal command of the group. -/
def Event.runsGroup (g : CommandGroup) (e : Event) : Bool :=
  match e.instr? with
  | some i => commandGroup i = g
  | none => false

/-- The CRC command that an event executes, if it executes one. -/
def Event.crcCommand? (e : Event) : Option Instr :=
  e.instr?.filter fun i => commandGroup i = .crc

/-- Byte i of the window, `x[WIN][i]` (R25). -/
def winByte (s : State) (i : Fin 4) : Byte :=
  match i with
  | 0 => s.win0
  | 1 => s.win1
  | 2 => s.win2
  | 3 => s.win3

/-- Two windows agree on bytes 0..w-1. -/
def sameWindow (w : Nat) (s s' : State) : Prop :=
  ∀ i : Fin 4, i.val < w → winByte s i = winByte s' i

/-- Reset is asserted, or the next event asserts it (R111). -/
def underReset (s : State) : Prop :=
  s.rst = true ∨ ∃ es, s.pending = .setRst true :: es

/-- n steps, stopping at the first stop: `Host.Core.run` of this machine, with its types written out. -/
def run : Nat → State → Result
  | 0, s => .next s
  | n + 1, s =>
    match step s with
    | .next t => run n t
    | .fault r => .fault r
    | .refused r => .refused r

/-- All the events `es` reach the port of `s`, one a step, and `s'` is the state after the last. -/
def Serves (s : State) (es : List Event) (s' : State) : Prop :=
  run es.length { s with pending := es } = .next s'

end Sys2Proof.Machine
end

