-- ==== Sys2Proof/Certificates/Slice0/Obligations.lean ====
section
/-! DEFINITION. The statements about the model. Each docstring names the rule of spec/ it formalises. -/

open Sys2Proof Sys2Proof.Machine

/-! ## Encoding (spec/30_encoding.md) -/

/-- R53 to R55, R58: decoding the word of a command gives the command back, with every operand. -/
def Obligations.DecodeOfEncode : Prop :=
  ∀ i : Instr, i.wellFormed = true → decodeWord (encode i) = .ok i

/-- R53 to R55, R61: no bit of a legal word is dropped; the command it decodes to encodes to that very word. -/
def Obligations.EncodeOfDecode : Prop :=
  ∀ (w : Word) (i : Instr), decodeWord w = .ok i → encode i = w

/-- R59: a word spells a command exactly when its masked bits are the row's match, its free field is the operand, and
at most one row of the table matches a word. -/
def Obligations.WordSpellsCommandByMaskAndMatch : Prop :=
  (∀ w : Word, decodeWord w = .ok .crcInit ↔ w &&& 0xFFFFFFFF = 0x10000000) ∧
  (∀ (w : Word) (b : Byte),
    decodeWord w = .ok (.crcByte b) ↔ w &&& 0xFFFFFF00 = 0x20000000 ∧ b = w.extractLsb' 0 8) ∧
  (∀ (w : Word) (k : Kind) (e : Endian),
    decodeWord w = .ok (Instr.vrd k e) ↔
      w &&& 0xFFFFFEFF = 0x30000000 ||| k.code.setWidth 32 ∧ e.bit = w.extractLsb' 8 1) ∧
  (∀ (w : Word) (k : Kind) (e : Endian),
    decodeWord w = .ok (Instr.vwr k e) ↔
      w &&& 0xFFFFFEFF = 0x40000000 ||| k.code.setWidth 32 ∧ e.bit = w.extractLsb' 8 1) ∧
  (∀ w : Word, (∃ i, decodeWord w = .ok i) ↔ ∃ r ∈ opcodeTable, r.spelledBy w = true) ∧
  (∀ (w : Word), ∀ r ∈ opcodeTable, ∀ r' ∈ opcodeTable,
    r.spelledBy w = true → r'.spelledBy w = true → r = r')

/-- R60, R61, R62: a reserved OP, a nonzero reserved bit and K = 7 make a word illegal; writing the all-zero word to
CMD sets ILL and changes nothing else. -/
def Obligations.ReservedEncodingsAreIllegal : Prop :=
  (∀ w : Word, w.extractLsb' 28 4 = 0x0 ∨ 0x5 ≤ w.extractLsb' 28 4 → ∃ r, decodeWord w = .error r) ∧
  (∀ s : State, execWord 0x00000000 s = .next { s with ill := true }) ∧
  (∀ w : Word, w.extractLsb' 28 4 = 0x1 → w.extractLsb' 0 28 ≠ 0 → ∃ r, decodeWord w = .error r) ∧
  (∀ w : Word, w.extractLsb' 28 4 = 0x2 → w.extractLsb' 8 20 ≠ 0 → ∃ r, decodeWord w = .error r) ∧
  (∀ w : Word, w.extractLsb' 28 4 = 0x3 ∨ w.extractLsb' 28 4 = 0x4 →
    w.extractLsb' 9 19 ≠ 0 ∨ w.extractLsb' 3 5 ≠ 0 → ∃ r, decodeWord w = .error r) ∧
  (∀ w : Word, w.extractLsb' 28 4 = 0x3 ∨ w.extractLsb' 28 4 = 0x4 →
    w.extractLsb' 0 3 = 7 → ∃ r, decodeWord w = .error r)

/-- R63: a word is illegal exactly when it matches no row of the table, and executing it sets ILL and nothing else;
no legal word is a no-op, for each changes some state. -/
def Obligations.IllegalExactlyWhenNoRowMatches : Prop :=
  ∀ w : Word,
    ((∃ r, decodeWord w = .error r) ↔ ∀ r ∈ opcodeTable, r.spelledBy w = false) ∧
    ((∀ r ∈ opcodeTable, r.spelledBy w = false) → ∀ s : State, execWord w s = .next { s with ill := true }) ∧
    (∀ i : Instr, decodeWord w = .ok i → ∃ s t : State, exec i s = .next t ∧ t ≠ s)

/-- R64 (derived there from R53 to R55): there are 285 legal words: 1 CRC.INIT, 256 CRC.BYTE, 14 VRD.* and 14 VWR.*. -/
def Obligations.ThereAre285LegalWords : Prop :=
  (∀ w : Word, (∃ i, decodeWord w = .ok i) ↔ w ∈ allInstrs.map encode) ∧
  (allInstrs.map encode).Nodup ∧ (allInstrs.map encode).length = 285 ∧
  (allInstrs.filter (fun i => i.mnemonic = "CRC.INIT")).length = 1 ∧
  (allInstrs.filter (fun i => i.mnemonic = "CRC.BYTE")).length = 256 ∧
  (allInstrs.filter (fun i => commandGroup i = .read)).length = 14 ∧
  (allInstrs.filter (fun i => commandGroup i = .write)).length = 14

/-- R53 to R56, R60 to R62: words written out bit by bit from the formats decode to the commands they stand for, or are
rejected. The names of the rejections in the last three clauses are the model's, not the spec's (log entry 17). -/
def Obligations.SampleWordsDecode : Prop :=
  decodeWord 0b0001_0000000000000000000000000000 = .ok .crcInit ∧
  decodeWord 0b0010_00000000000000000000_11111110 = .ok (.crcByte 0xFE) ∧
  decodeWord 0b0011_0000000000000000000_0_00000_010 = .ok (.vrdInt16 .little) ∧
  decodeWord 0b0011_0000000000000000000_1_00000_110 = .ok (.vrdBitfield8 .big) ∧
  decodeWord 0b0100_0000000000000000000_0_00000_011 = .ok (.vwrUint32 .little) ∧
  decodeWord 0b0100_0000000000000000000_1_00000_100 = .ok (.vwrFloat32 .big) ∧
  decodeWord 0b0011_0000000000000000000_0_00000_111 = .error .reservedKind ∧
  decodeWord 0b0011_0000000000000000000_0_00001_000 = .error .reservedBits ∧
  decodeWord 0b0101_0000000000000000000000000000 = .error .reservedOp

/-- R65: the assembler. Each mnemonic encodes as the rule says, an operand of CRC.BYTE outside 0..255 is an error, and
the order may be left out for the width-1 kinds, where it is LE. -/
def Obligations.AssemblerEncodesMnemonics : Prop :=
  (∀ i : Instr, assembleText (disassemble i) = some (encode i)) ∧
  encode .crcInit = 0x10000000 ∧
  (∀ b : Nat, b ≤ 255 →
    (assemble (.crcByte b)).map encode = some (0x20000000 ||| BitVec.ofNat 32 b)) ∧
  (∀ b : Nat, 255 < b → assemble (.crcByte b) = none) ∧
  (∀ (k : Kind) (e : Endian),
    (assemble (.vrd k (some e))).map encode =
      some (0x30000000 ||| (e.bit.setWidth 32 <<< 8) ||| k.code.setWidth 32)) ∧
  (∀ (k : Kind) (e : Endian),
    (assemble (.vwr k (some e))).map encode =
      some (0x40000000 ||| (e.bit.setWidth 32 <<< 8) ||| k.code.setWidth 32)) ∧
  (∀ k : Kind, assemble (.vrd k none) = if k.width = 1 then some (Instr.vrd k .little) else none) ∧
  (∀ k : Kind, assemble (.vwr k none) = if k.width = 1 then some (Instr.vwr k .little) else none)

/-- R67: what the pseudo-instructions expand to, as writes and reads of the slots at the offsets of R32. -/
def Obligations.PseudoInstructionsExpand : Prop :=
  (∀ (c : Word) (a : AsmCommand) (i : Instr), assemble a = some i →
    expand c (.command a) = some [.write 0x00 4 (encode i)] ∧
    expand c (.writeCommand a) = some [.write 0x00 4 (encode i)]) ∧
  (∀ (c : Word) (bs : List Byte),
    expand c (.crcBytes (bs.map BitVec.toNat)) =
      some (bs.map fun b => .write 0x00 4 (0x20000000 ||| b.setWidth 32))) ∧
  (∀ (c : Word) (bs : List Byte),
    expand c (.crcOver (bs.map BitVec.toNat)) =
      some (.write 0x00 4 0x10000000 :: bs.map fun b => .write 0x00 4 (0x20000000 ||| b.setWidth 32))) ∧
  (∀ c b0 b1 b2 b3 : Word,
    expand c (.loadWin [b0]) = some [.write 0x14 4 b0] ∧
    expand c (.loadWin [b0, b1]) = some [.write 0x14 4 b0, .write 0x18 4 b1] ∧
    expand c (.loadWin [b0, b1, b2]) = some [.write 0x14 4 b0, .write 0x18 4 b1, .write 0x1C 4 b2] ∧
    expand c (.loadWin [b0, b1, b2, b3]) =
      some [.write 0x14 4 b0, .write 0x18 4 b1, .write 0x1C 4 b2, .write 0x20 4 b3]) ∧
  (∀ c v : Word, expand c (.put v) = some [.write 0x04 4 v]) ∧
  (∀ c : Word, expand c .crcSer = some [.read 0x0C 4, .write 0x04 4 c, .write 0x00 4 0x40000101])

/-- R66, over the text of a line: `R <slot>` and `W <slot>, <value>` are one 32-bit access at the slot's offset of R32,
a value written to CMD may be a command mnemonic, and nothing from `;` on counts, so that a line with a comment alone is
no access. The model's part: decimal values, blanks and a shown reply on a read line (log entry 13). -/
def Obligations.ClientLinesAreTheirAccesses : Prop :=
  (∀ p ∈ [("CMD", (0x00 : BitVec 6)), ("DATA", 0x04), ("RESULT", 0x08), ("CRC", 0x0C), ("STATUS", 0x10),
      ("WIN0", 0x14), ("WIN1", 0x18), ("WIN2", 0x1C), ("WIN3", 0x20)], ∀ c : Word,
    lineEvents c ("R " ++ p.1) = some [.read p.2 4] ∧
    (∀ v : Word, lineEvents c ("R " ++ p.1 ++ " -> " ++ Nat.repr v.toNat) = some [.read p.2 4]) ∧
    (∀ v : Word, lineEvents c ("W " ++ p.1 ++ ", " ++ Nat.repr v.toNat) = some [.write p.2 4 v])) ∧
  (∀ (c : Word) (i : Instr), lineEvents c ("W CMD, " ++ disassemble i) = some [.write 0x00 4 (encode i)]) ∧
  (∀ (c : Word) (line rest : String), lineEvents c (line ++ ";" ++ rest) = lineEvents c line) ∧
  (∀ (c : Word) (n : Nat) (rest : String),
    lineEvents c (String.ofList (List.replicate n ' ') ++ ";" ++ rest) = some [])

/-! ## Read commands (spec/40_value_read.md) -/

/-- R68: WinVal, and the shape of every VRD command: it answers, writes RESULT, RV and KIND and nothing else, and the
value depends on WIN0..WIN(w-1) alone. -/
def Obligations.VrdCommonShape : Prop :=
  (∀ s : State,
    winVal1 .little s = s.win0 ∧ winVal1 .big s = s.win0 ∧
    winVal2 .little s = s.win1 ++ s.win0 ∧ winVal2 .big s = s.win0 ++ s.win1 ∧
    winVal4 .little s = s.win3 ++ s.win2 ++ s.win1 ++ s.win0 ∧
    winVal4 .big s = s.win0 ++ s.win1 ++ s.win2 ++ s.win3) ∧
  ∀ (k : Kind) (e : Endian) (s : State), ∃ v : Word,
    exec (Instr.vrd k e) s = .next { s with result := v, rv := true, kind := k.code } ∧
    (∀ s' : State, sameWindow k.width s s' →
      exec (Instr.vrd k e) s' = .next { s' with result := v, rv := true, kind := k.code }) ∧
    (∀ t : State, exec (Instr.vrd k e) s = .next t →
      ∀ off : BitVec 6, off ≠ slotOffset .result → off ≠ slotOffset .status → readAt off t = readAt off s)

/-- R69. -/
def Obligations.VrdUint8Rule : Prop :=
  (∀ (e : Endian) (s : State),
    exec (.vrdUint8 e) s = .next { s with result := s.win0.setWidth 32, rv := true, kind := 0 }) ∧
  encode (.vrdUint8 .little) = 0x30000000 ∧ encode (.vrdUint8 .big) = 0x30000100 ∧ Kind.tag .uint8 = .u8 ∧
  (∀ (e : Endian) (s : State), s.win0 = 0x64 →
    exec (.vrdUint8 e) s = .next { s with result := 0x00000064, rv := true, kind := 0 }) ∧
  (∀ (e : Endian) (s : State), s.win0 = 0xFF →
    exec (.vrdUint8 e) s = .next { s with result := 0x000000FF, rv := true, kind := 0 })

/-- R70. -/
def Obligations.VrdUint16Rule : Prop :=
  (∀ s : State, exec (.vrdUint16 .little) s =
    .next { s with result := (s.win1 ++ s.win0).setWidth 32, rv := true, kind := 1 }) ∧
  (∀ s : State, exec (.vrdUint16 .big) s =
    .next { s with result := (s.win0 ++ s.win1).setWidth 32, rv := true, kind := 1 }) ∧
  encode (.vrdUint16 .little) = 0x30000001 ∧ encode (.vrdUint16 .big) = 0x30000101 ∧ Kind.tag .uint16 = .u16 ∧
  (∀ s : State, s.win0 = 0x4B → s.win1 = 0x37 →
    exec (.vrdUint16 .big) s = .next { s with result := 0x00004B37, rv := true, kind := 1 } ∧
    exec (.vrdUint16 .little) s = .next { s with result := 0x0000374B, rv := true, kind := 1 }) ∧
  (∀ (e : Endian) (s : State), s.win0 = 0xFF → s.win1 = 0xFF →
    exec (.vrdUint16 e) s = .next { s with result := 0x0000FFFF, rv := true, kind := 1 })

/-- R71: RESULT is the 32-bit two's-complement form of u - 0x10000 when u[15] = 1, and of u otherwise. -/
def Obligations.VrdInt16Rule : Prop :=
  (∀ (e : Endian) (s : State), ∃ v : Word,
    exec (.vrdInt16 e) s = .next { s with result := v, rv := true, kind := 2 } ∧
    v = (winVal2 e s).signExtend 32 ∧
    v.toInt = if (winVal2 e s).getLsbD 15 then ((winVal2 e s).toNat : Int) - 0x10000 else (winVal2 e s).toNat) ∧
  encode (.vrdInt16 .little) = 0x30000002 ∧ encode (.vrdInt16 .big) = 0x30000102 ∧ Kind.tag .int16 = .i16 ∧
  (∀ (e : Endian) (s : State), winVal2 e s = 0x7FFF →
    exec (.vrdInt16 e) s = .next { s with result := 0x00007FFF, rv := true, kind := 2 }) ∧
  (∀ (e : Endian) (s : State), winVal2 e s = 0x8000 →
    exec (.vrdInt16 e) s = .next { s with result := 0xFFFF8000, rv := true, kind := 2 }) ∧
  (∀ (e : Endian) (s : State), winVal2 e s = 0xFFFF →
    exec (.vrdInt16 e) s = .next { s with result := 0xFFFFFFFF, rv := true, kind := 2 }) ∧
  (∀ s : State, s.win0 = 0x00 → s.win1 = 0x80 →
    exec (.vrdInt16 .little) s = .next { s with result := 0xFFFF8000, rv := true, kind := 2 } ∧
    exec (.vrdInt16 .big) s = .next { s with result := 0x00000080, rv := true, kind := 2 })

/-- R72. -/
def Obligations.VrdUint32Rule : Prop :=
  (∀ s : State, exec (.vrdUint32 .little) s =
    .next { s with result := s.win3 ++ s.win2 ++ s.win1 ++ s.win0, rv := true, kind := 3 }) ∧
  (∀ s : State, exec (.vrdUint32 .big) s =
    .next { s with result := s.win0 ++ s.win1 ++ s.win2 ++ s.win3, rv := true, kind := 3 }) ∧
  encode (.vrdUint32 .little) = 0x30000003 ∧ encode (.vrdUint32 .big) = 0x30000103 ∧ Kind.tag .uint32 = .u32 ∧
  (∀ s : State, s.win0 = 0x40 → s.win1 = 0xE2 → s.win2 = 0x01 → s.win3 = 0x00 →
    exec (.vrdUint32 .little) s = .next { s with result := 123456, rv := true, kind := 3 } ∧
    exec (.vrdUint32 .big) s = .next { s with result := 0x40E20100, rv := true, kind := 3 })

/-- R73: the pattern of the four bytes, bit for bit. The last clause, that the example's pattern is 1.0, reads the
pattern by the layout the spec marks as general knowledge (log entry 9), as a sign beside a rational magnitude, which is
the model's choice (log entry 18). -/
def Obligations.VrdFloat32Rule : Prop :=
  (∀ s : State, exec (.vrdFloat32 .little) s =
    .next { s with result := s.win3 ++ s.win2 ++ s.win1 ++ s.win0, rv := true, kind := 4 }) ∧
  (∀ s : State, exec (.vrdFloat32 .big) s =
    .next { s with result := s.win0 ++ s.win1 ++ s.win2 ++ s.win3, rv := true, kind := 4 }) ∧
  encode (.vrdFloat32 .little) = 0x30000004 ∧ encode (.vrdFloat32 .big) = 0x30000104 ∧ Kind.tag .float32 = .f32 ∧
  (∀ s : State, s.win0 = 0x00 → s.win1 = 0x00 → s.win2 = 0x80 → s.win3 = 0x3F →
    exec (.vrdFloat32 .little) s = .next { s with result := 0x3F800000, rv := true, kind := 4 }) ∧
  float32Value 0x3F800000 = .finite false 1

/-- R74. -/
def Obligations.VrdEnum8Rule : Prop :=
  (∀ (e : Endian) (s : State),
    exec (.vrdEnum8 e) s = .next { s with result := s.win0.setWidth 32, rv := true, kind := 5 }) ∧
  encode (.vrdEnum8 .little) = 0x30000005 ∧ encode (.vrdEnum8 .big) = 0x30000105 ∧ Kind.tag .enum8 = .u8 ∧
  (∀ (e : Endian) (s : State), s.win0 = 0x03 →
    exec (.vrdEnum8 e) s = .next { s with result := 0x00000003, rv := true, kind := 5 })

/-- R75: bit i of RESULT is bit i of WIN0, and bits 31:8 are 0. -/
def Obligations.VrdBitfield8Rule : Prop :=
  (∀ (e : Endian) (s : State), ∃ v : Word,
    exec (.vrdBitfield8 e) s = .next { s with result := v, rv := true, kind := 6 } ∧
    v = s.win0.setWidth 32 ∧
    (∀ i < 8, v.getLsbD i = s.win0.getLsbD i) ∧ v.extractLsb' 8 24 = 0) ∧
  encode (.vrdBitfield8 .little) = 0x30000006 ∧ encode (.vrdBitfield8 .big) = 0x30000106 ∧
  Kind.tag .bitfield8 = .u8 ∧
  (∀ s : State, s.win0 = 0xA5 →
    exec (.vrdBitfield8 .big) s = .next { s with result := 0x000000A5, rv := true, kind := 6 })

/-- R77 (derived there from R69 to R75): which read commands agree on RESULT, and where int16 and uint16 differ. -/
def Obligations.ReadKindsAgree : Prop :=
  ∀ (e : Endian) (s : State),
    (∃ v, exec (.vrdUint32 e) s = .next { s with result := v, rv := true, kind := 3 } ∧
          exec (.vrdFloat32 e) s = .next { s with result := v, rv := true, kind := 4 }) ∧
    (∃ v, exec (.vrdUint8 e) s = .next { s with result := v, rv := true, kind := 0 } ∧
          exec (.vrdEnum8 e) s = .next { s with result := v, rv := true, kind := 5 } ∧
          exec (.vrdBitfield8 e) s = .next { s with result := v, rv := true, kind := 6 }) ∧
    (∃ u v, exec (.vrdUint16 e) s = .next { s with result := u, rv := true, kind := 1 } ∧
            exec (.vrdInt16 e) s = .next { s with result := v, rv := true, kind := 2 } ∧
            u.extractLsb' 0 16 = v.extractLsb' 0 16 ∧
            (u ≠ v ↔ (winVal2 e s).getLsbD 15 = true))

/-- The number a window holds, as a sum over its bytes: byte 0 is the least significant under LittleEndian (R40) and the
most significant under BigEndian, whose byte positions the spec marks "from general knowledge, not in source"
(20_memory.md; log entry 9). -/
def Obligations.WindowNumberByByteOrder : Prop :=
  ∀ s : State,
    (winVal2 .little s).toNat = s.win0.toNat + 256 * s.win1.toNat ∧
    (winVal4 .little s).toNat =
      s.win0.toNat + 256 * s.win1.toNat + 256 ^ 2 * s.win2.toNat + 256 ^ 3 * s.win3.toNat ∧
    (winVal2 .big s).toNat = s.win1.toNat + 256 * s.win0.toNat ∧
    (winVal4 .big s).toNat =
      s.win3.toNat + 256 * s.win2.toNat + 256 ^ 2 * s.win1.toNat + 256 ^ 3 * s.win0.toNat ∧
    (s.win0 = 0x40 → s.win1 = 0xE2 → s.win2 = 0x01 → s.win3 = 0x00 → (winVal4 .little s).toNat = 123456)

/-- R42, R56: E = 0 is LittleEndian and E = 1 BigEndian in every format-V command; for the width-1 kinds both are legal
and the effect is the same. -/
def Obligations.OrderBitSelectsByteOrder : Prop :=
  Endian.little.bit = 0 ∧ Endian.big.bit = 1 ∧
  (∀ (k : Kind) (e : Endian),
    decodeWord (0x30000000 ||| (e.bit.setWidth 32 <<< 8) ||| k.code.setWidth 32) = .ok (Instr.vrd k e) ∧
    decodeWord (0x40000000 ||| (e.bit.setWidth 32 <<< 8) ||| k.code.setWidth 32) = .ok (Instr.vwr k e)) ∧
  (∀ k : Kind, k.width = 1 → ∀ (e : Endian) (s : State),
    exec (Instr.vrd k e) s = .next { s with result := s.win0.setWidth 32, rv := true, kind := k.code } ∧
    exec (Instr.vwr k e) s = .next { s with win0 := s.data.extractLsb' 0 8 })

/-- The value of a binary32 pattern, by its sign, exponent and fraction fields: the formula of 40_value_read.md section 3,
which the spec marks "from general knowledge, not in source" (log entries 9 and 18). -/
def Obligations.Float32ValueByFields : Prop :=
  ∀ (sign : BitVec 1) (e : BitVec 8) (f : BitVec 23),
    (e = 0xFF → f ≠ 0 → float32Value (sign ++ e ++ f) = .nan) ∧
    (e = 0xFF → f = 0 → float32Value (sign ++ e ++ f) = .infinity (sign = 1)) ∧
    (1 ≤ e.toNat → e.toNat ≤ 0xFE → float32Value (sign ++ e ++ f) =
      .finite (sign = 1) ((2 : Rat) ^ ((e.toNat : Int) - 127) * (1 + (f.toNat : Rat) / 2 ^ 23))) ∧
    (e = 0 → float32Value (sign ++ e ++ f) =
      .finite (sign = 1) ((2 : Rat) ^ (-126 : Int) * ((f.toNat : Rat) / 2 ^ 23)))

/-! ## Write commands (spec/41_value_write.md) -/

/-- R78: SetWin and its inverse WinVal, and the shape of every VWR command: it answers, writes WIN0..WIN(w-1) and
nothing else, and what it writes depends on the low 8w bits of DATA alone. -/
def Obligations.VwrCommonShape : Prop :=
  (∀ (s : State) (b : Byte) (h : Half) (v : Word),
    setWin1 .little b s = { s with win0 := b } ∧ setWin1 .big b s = { s with win0 := b } ∧
    setWin2 .little h s = { s with win0 := h.extractLsb' 0 8, win1 := h.extractLsb' 8 8 } ∧
    setWin2 .big h s = { s with win0 := h.extractLsb' 8 8, win1 := h.extractLsb' 0 8 } ∧
    setWin4 .little v s = { s with
      win0 := v.extractLsb' 0 8, win1 := v.extractLsb' 8 8, win2 := v.extractLsb' 16 8, win3 := v.extractLsb' 24 8 } ∧
    setWin4 .big v s = { s with
      win0 := v.extractLsb' 24 8, win1 := v.extractLsb' 16 8, win2 := v.extractLsb' 8 8, win3 := v.extractLsb' 0 8 }) ∧
  (∀ (e : Endian) (s : State) (b : Byte) (h : Half) (v : Word),
    winVal1 e (setWin1 e b s) = b ∧ winVal2 e (setWin2 e h s) = h ∧ winVal4 e (setWin4 e v s) = v) ∧
  ∀ (k : Kind) (e : Endian) (s : State), ∃ b0 b1 b2 b3 : Byte, ∃ t : State,
    t = { s with win0 := b0, win1 := b1, win2 := b2, win3 := b3 } ∧
    exec (Instr.vwr k e) s = .next t ∧
    (∀ i : Fin 4, k.width ≤ i.val → winByte t i = winByte s i) ∧
    (∀ s' : State, s'.data.toNat % 2 ^ (8 * k.width) = s.data.toNat % 2 ^ (8 * k.width) →
      ∃ t', exec (Instr.vwr k e) s' = .next t' ∧ sameWindow k.width t' t) ∧
    (∀ off : BitVec 6,
      (∀ i : Fin 4, i.val < k.width → off.toNat ≠ 0x14 + 4 * i.val) → readAt off t = readAt off s)

/-- R79. -/
def Obligations.VwrUint8Rule : Prop :=
  (∀ (e : Endian) (s : State), exec (.vwrUint8 e) s = .next { s with win0 := s.data.extractLsb' 0 8 }) ∧
  encode (.vwrUint8 .little) = 0x40000000 ∧ encode (.vwrUint8 .big) = 0x40000100 ∧
  (∀ (e : Endian) (s : State), s.data = 0x00000164 → exec (.vwrUint8 e) s = .next { s with win0 := 0x64 }) ∧
  (∀ (e : Endian) (s : State), s.data = 0x00000064 → exec (.vwrUint8 e) s = .next { s with win0 := 0x64 })

/-- R80. -/
def Obligations.VwrUint16Rule : Prop :=
  (∀ s : State, exec (.vwrUint16 .little) s =
    .next { s with win0 := s.data.extractLsb' 0 8, win1 := s.data.extractLsb' 8 8 }) ∧
  (∀ s : State, exec (.vwrUint16 .big) s =
    .next { s with win0 := s.data.extractLsb' 8 8, win1 := s.data.extractLsb' 0 8 }) ∧
  encode (.vwrUint16 .little) = 0x40000001 ∧ encode (.vwrUint16 .big) = 0x40000101 ∧
  (∀ (e : Endian) (s : State), s.data = 0x0001FFFF →
    exec (.vwrUint16 e) s = .next { s with win0 := 0xFF, win1 := 0xFF }) ∧
  (∀ s : State, s.data = 0x00004B37 →
    exec (.vwrUint16 .big) s = .next { s with win0 := 0x4B, win1 := 0x37 } ∧
    exec (.vwrUint16 .little) s = .next { s with win0 := 0x37, win1 := 0x4B })

/-- R81: the stored 16 bits are the value modulo 2^16, and VWR.uint16 writes the same bytes. -/
def Obligations.VwrInt16Rule : Prop :=
  (∀ s : State, exec (.vwrInt16 .little) s =
    .next { s with win0 := s.data.extractLsb' 0 8, win1 := s.data.extractLsb' 8 8 }) ∧
  (∀ s : State, exec (.vwrInt16 .big) s =
    .next { s with win0 := s.data.extractLsb' 8 8, win1 := s.data.extractLsb' 0 8 }) ∧
  (∀ (e : Endian) (s t : State), exec (.vwrInt16 e) s = .next t →
    ((winVal2 e t).toNat : Int) = s.data.toInt % 2 ^ 16) ∧
  (∀ (e : Endian) (s : State), exec (.vwrInt16 e) s = exec (.vwrUint16 e) s) ∧
  encode (.vwrInt16 .little) = 0x40000002 ∧ encode (.vwrInt16 .big) = 0x40000102 ∧
  (∀ (e : Endian) (s : State), s.data = 0xFFFFFFFF →
    exec (.vwrInt16 e) s = .next { s with win0 := 0xFF, win1 := 0xFF }) ∧
  (∀ s : State, s.data = 0xFFFF8000 ∨ s.data = 0x00008000 →
    exec (.vwrInt16 .big) s = .next { s with win0 := 0x80, win1 := 0x00 } ∧
    exec (.vwrInt16 .little) s = .next { s with win0 := 0x00, win1 := 0x80 }) ∧
  (∀ s : State, s.data = 0xFFFFFF9C →
    exec (.vwrInt16 .little) s = .next { s with win0 := 0x9C, win1 := 0xFF })

/-- R82. -/
def Obligations.VwrUint32Rule : Prop :=
  (∀ s : State, exec (.vwrUint32 .little) s = .next { s with
    win0 := s.data.extractLsb' 0 8, win1 := s.data.extractLsb' 8 8,
    win2 := s.data.extractLsb' 16 8, win3 := s.data.extractLsb' 24 8 }) ∧
  (∀ s : State, exec (.vwrUint32 .big) s = .next { s with
    win0 := s.data.extractLsb' 24 8, win1 := s.data.extractLsb' 16 8,
    win2 := s.data.extractLsb' 8 8, win3 := s.data.extractLsb' 0 8 }) ∧
  encode (.vwrUint32 .little) = 0x40000003 ∧ encode (.vwrUint32 .big) = 0x40000103 ∧
  (∀ s : State, s.data = 123456 →
    exec (.vwrUint32 .little) s = .next { s with win0 := 0x40, win1 := 0xE2, win2 := 0x01, win3 := 0x00 })

/-- R83: the pattern is copied bit for bit. -/
def Obligations.VwrFloat32Rule : Prop :=
  (∀ s : State, exec (.vwrFloat32 .little) s = .next { s with
    win0 := s.data.extractLsb' 0 8, win1 := s.data.extractLsb' 8 8,
    win2 := s.data.extractLsb' 16 8, win3 := s.data.extractLsb' 24 8 }) ∧
  (∀ s : State, exec (.vwrFloat32 .big) s = .next { s with
    win0 := s.data.extractLsb' 24 8, win1 := s.data.extractLsb' 16 8,
    win2 := s.data.extractLsb' 8 8, win3 := s.data.extractLsb' 0 8 }) ∧
  encode (.vwrFloat32 .little) = 0x40000004 ∧ encode (.vwrFloat32 .big) = 0x40000104 ∧
  (∀ s : State, s.data = 0x3F800000 →
    exec (.vwrFloat32 .big) s = .next { s with win0 := 0x3F, win1 := 0x80, win2 := 0x00, win3 := 0x00 })

/-- R84. -/
def Obligations.VwrEnum8Rule : Prop :=
  (∀ (e : Endian) (s : State), exec (.vwrEnum8 e) s = .next { s with win0 := s.data.extractLsb' 0 8 }) ∧
  (∀ (e : Endian) (s : State), exec (.vwrEnum8 e) s = exec (.vwrUint8 e) s) ∧
  encode (.vwrEnum8 .little) = 0x40000005 ∧ encode (.vwrEnum8 .big) = 0x40000105 ∧
  (∀ (e : Endian) (s : State), s.data = 0x00000002 → exec (.vwrEnum8 e) s = .next { s with win0 := 0x02 })

/-- R85: bit i of WIN0 becomes DATA[i]. -/
def Obligations.VwrBitfield8Rule : Prop :=
  (∀ (e : Endian) (s : State), ∃ b : Byte,
    exec (.vwrBitfield8 e) s = .next { s with win0 := b } ∧
    b = s.data.extractLsb' 0 8 ∧ ∀ i < 8, b.getLsbD i = s.data.getLsbD i) ∧
  (∀ (e : Endian) (s : State), exec (.vwrBitfield8 e) s = exec (.vwrUint8 e) s) ∧
  encode (.vwrBitfield8 .little) = 0x40000006 ∧ encode (.vwrBitfield8 .big) = 0x40000106 ∧
  (∀ s : State, s.data = 0x000000A5 → exec (.vwrBitfield8 .big) s = .next { s with win0 := 0xA5 })

/-- R88 (derived there from R68, R78, R86): VWR(K, E) then VRD(K, E), with the window left alone between them, gives the low 8w bits of DATA back,
zero-extended, or sign-extended for int16; a DATA value that fits its kind comes back exactly. -/
def Obligations.WriteThenReadRoundTrip : Prop :=
  ∀ (k : Kind) (e : Endian) (s t u : State),
    exec (Instr.vwr k e) s = .next t → sameWindow 4 t u →
    ∃ r : State, exec (Instr.vrd k e) u = .next r ∧
      (k ≠ .int16 → r.result.toNat = s.data.toNat % 2 ^ (8 * k.width)) ∧
      (k = .int16 → r.result = (s.data.setWidth 16).signExtend 32) ∧
      (k ≠ .int16 → s.data.toNat < 2 ^ (8 * k.width) → r.result = s.data) ∧
      (k = .int16 → -2 ^ 15 ≤ s.data.toInt → s.data.toInt < 2 ^ 15 → r.result = s.data)

/-- R43, R119 (derived there from R40, R41, R68, R78): a uint16 read after a uint32 write sees window bytes 0 and 1, the low half under LE and the high half
under BE; a narrower write leaves the upper bytes, and a wider read gets them. -/
def Obligations.MixedWidthWindowViews : Prop :=
  (∀ s : State,
    (∃ t u, exec (.vwrUint32 .little) s = .next t ∧ exec (.vrdUint16 .little) t = .next u ∧
      u.result = (s.data.extractLsb' 0 16).setWidth 32) ∧
    (∃ t u, exec (.vwrUint32 .big) s = .next t ∧ exec (.vrdUint16 .big) t = .next u ∧
      u.result = (s.data.extractLsb' 16 16).setWidth 32)) ∧
  (∀ (k : Kind) (e : Endian) (s t : State), exec (Instr.vwr k e) s = .next t →
    ∀ i : Fin 4, k.width ≤ i.val → winByte t i = winByte s i) ∧
  (∀ s : State,
    (∃ t u, exec (.vwrInt16 .little) s = .next t ∧ exec (.vrdUint32 .little) t = .next u ∧
      u.result = s.win3 ++ s.win2 ++ s.data.extractLsb' 0 16) ∧
    (∃ t u, exec (.vwrUint8 .little) s = .next t ∧ exec (.vrdUint32 .little) t = .next u ∧
      u.result = s.win3 ++ s.win2 ++ s.win1 ++ s.data.extractLsb' 0 8))

/-! ## CRC commands (spec/45_crc16.md) -/

/-- R89. -/
def Obligations.CrcInitRule : Prop :=
  (∀ s : State, exec .crcInit s = .next { s with crc := 0xFFFF }) ∧
  encode .crcInit = 0x10000000 ∧
  (∀ s : State, s.crc = 0x4B37 → exec .crcInit s = .next { s with crc := 0xFFFF }) ∧
  (∀ s t : State, exec .crcInit s = .next t → exec .crcInit t = .next t)

/-- R90: eight iterations of the shift-and-XOR loop from CRC ^ zext(b), written out; corner cases and the example. -/
def Obligations.CrcByteRule : Prop :=
  (∀ (b : Byte) (s : State),
    exec (.crcByte b) s = .next { s with
      crc := (List.range 8).foldl
        (fun (a : Half) _ => if a.getLsbD 0 = true then (a >>> 1) ^^^ 0xA001 else a >>> 1)
        (s.crc ^^^ b.setWidth 16) }) ∧
  (∀ b : Byte, encode (.crcByte b) = 0x20000000 ||| b.setWidth 32) ∧
  (∀ s : State, s.crc = 0x0000 → exec (.crcByte 0x00) s = .next { s with crc := 0x0000 }) ∧
  (∀ s : State, s.crc = 0xFFFF →
    exec (.crcByte 0xFF) s = .next { s with crc := 0x00FF } ∧
    exec (.crcByte 0x00) s = .next { s with crc := 0x40BF } ∧
    exec (.crcByte 0x01) s = .next { s with crc := 0x807E }) ∧
  (List.range 8).map (fun n => crcShifts (n + 1) (0xFFFF ^^^ 0x0001)) =
    [0x7FFF, 0x9FFE, 0x4FFF, 0x87FE, 0x43FF, 0x81FE, 0x40FF, 0x807E]

/-- R90's corner case "linear over GF(2)", for all inputs: the update of an XOR is the XOR of the updates. -/
def Obligations.CrcUpdateIsLinear : Prop :=
  ∀ (s s' : State) (b b' : Byte), ∃ c c' : Half,
    exec (.crcByte b) s = .next { s with crc := c } ∧
    exec (.crcByte b') s' = .next { s' with crc := c' } ∧
    exec (.crcByte (b ^^^ b')) { s with crc := s.crc ^^^ s'.crc } = .next { s with crc := c ^^^ c' }

/-- R91 (derived there from R89, R90): a session leaves the checksum of its bytes in CRC, whatever value commands, accesses and illegal words come
between its commands; and the session itself runs. A session ends at its last CRC.BYTE here, without R13's read of CRC: the
model's choice (log entry 19). -/
def Obligations.SessionLeavesChecksum : Prop :=
  crc16 [] = 0xFFFF ∧ (∀ (m : List Byte) (b : Byte), crc16 (m ++ [b]) = crcByteValue (crc16 m) b) ∧
  (∀ (s t : State) (es : List Event) (m : List Byte),
    s.rst = false → (∀ e ∈ es, e.noReset = true) →
    es.filterMap Event.crcCommand? = .crcInit :: m.map Instr.crcByte →
    Serves s es t → t.crc = crc16 m) ∧
  (∀ (s : State) (m : List Byte), s.rst = false →
    Serves s (crcOverEvents m) { s with crc := crc16 m, pending := [] })

/-- R13, R91 (R91 derived there from R89, R90): the read of CRC that closes a session returns the checksum of its bytes,
and the session with its read changes nothing else. That the read is apart from the session is the model's choice (log
entry 19), and so is the list of replies (log entry 2). -/
def Obligations.ClosingReadReturnsChecksum : Prop :=
  ∀ (s : State) (m : List Byte), s.rst = false →
    Serves s (sessionWithReadEvents m) { s with
      crc := crc16 m, pending := [], replies := s.replies ++ [(crc16 m).setWidth 32] }

/-- R91, R92 (R91 derived there from R89, R90): any number of bytes, none included; bytes without CRC.INIT after reset
continue from 0xFFFF, and bytes after a finished session continue that session. The first clause is the session of R91, as
in SessionLeavesChecksum; that a session ends at its last CRC.BYTE, without R13's read of CRC, is the model's choice (log
entry 19). -/
def Obligations.ChecksumContinues : Prop :=
  (∀ (s : State) (m : List Byte), s.rst = false →
    Serves s (crcOverEvents m) { s with crc := crc16 m, pending := [] }) ∧
  crc16 [] = 0xFFFF ∧
  (∀ m : List Byte, Serves State.reset (crcBytesEvents m) { State.reset with crc := crc16 m }) ∧
  (∀ (s : State) (m m' : List Byte), s.rst = false → s.crc = crc16 m →
    Serves s (crcBytesEvents m') { s with crc := crc16 (m ++ m'), pending := [] })

/-- R93 (derived there from R68, R78, R89, R90): value commands neither read nor write CRC; CRC commands read and write CRC alone. -/
def Obligations.CrcAndValueUnitsAreIndependent : Prop :=
  (∀ (i : Instr) (s : State) (c : Half), commandGroup i ≠ .crc →
    ∃ t, exec i s = .next t ∧ t.crc = s.crc ∧ exec i { s with crc := c } = .next { t with crc := c }) ∧
  (∀ (i : Instr) (s s' : State), commandGroup i = .crc → s.crc = s'.crc →
    ∃ c, exec i s = .next { s with crc := c } ∧ exec i s' = .next { s' with crc := c }) ∧
  (∀ (i : Instr) (s t : State), commandGroup i = .crc → exec i s = .next t →
    ∀ off : BitVec 6, off ≠ slotOffset .crc → readAt off t = readAt off s)

/-- R94 (derived there from R90): flipping any one bit of any one byte of a sequence changes its checksum. -/
def Obligations.SingleBitFlipChangesChecksum : Prop :=
  ∀ (p q : List Byte) (b : Byte) (j : Nat), j < 8 →
    crc16 (p ++ (b ^^^ BitVec.ofNat 8 (2 ^ j)) :: q) ≠ crc16 (p ++ b :: q)

/-- R44: reading CRC, writing it to DATA and running VWR.uint16 BE (CRC.SER) puts CRC[15:8] in WIN0 and CRC[7:0] in
WIN1, and leaves CRC and the rest alone. -/
def Obligations.CrcSerializesBigEndian : Prop :=
  ∀ s : State, s.rst = false →
    Serves s (crcSerEvents (s.crc.setWidth 32)) { s with
      data := s.crc.setWidth 32, win0 := s.crc.extractLsb' 8 8, win1 := s.crc.extractLsb' 0 8,
      pending := [], replies := s.replies ++ [s.crc.setWidth 32] }

/-! ## State, status and reset (spec/10_state.md, 60_exceptions.md, 70_reset_and_hazards.md) -/

/-- R29: after reset, from any state, every register holds the value of the table. -/
def Obligations.ResetSetsEveryRegister : Prop :=
  ∀ s : State,
    Serves s [.setRst true, .setRst false]
      { data := 0x00000000, result := 0x00000000, crc := 0xFFFF, ill := false, rv := false, kind := 0b000,
        win0 := 0x00, win1 := 0x00, win2 := 0x00, win3 := 0x00,
        rst := false, pending := [], replies := s.replies } ∧
    ∀ t : State, AtReset t → readAt (slotOffset .status) t = 0x00000000

/-- R111: asserting rst sets every register to its reset value; while it is asserted every access is refused and
the registers keep those values; on deassertion the block is in the reset state and serves accesses again; nothing else
clears ILL or RV. The model's part: which name the refusal has when the access is narrow or misaligned as well (log entry
5), a change of rst as an event (log entry 3), and the step with nothing pending (log entry 4). -/
def Obligations.ResetInputRules : Prop :=
  (∀ (s : State) (es : List Event), s.pending = .setRst true :: es →
    ∃ t, step s = .next t ∧ AtReset t ∧ t.rst = true ∧ t.pending = es) ∧
  (∀ (s : State) (es : List Event) (off : BitVec 6) (size : Nat) (v : Word), s.rst = true →
    s.pending = .read off size :: es ∨ s.pending = .write off size v :: es →
    step s = .refused .accessDuringReset) ∧
  (∀ s : State, s.rst = true → s.pending = [] → ∃ t, step s = .next t ∧ AtReset t ∧ t.rst = true) ∧
  (∀ (s : State) (es : List Event), s.rst = true → s.pending = .setRst false :: es →
    ∃ t, step s = .next t ∧ AtReset t ∧ t.rst = false ∧ t.pending = es) ∧
  (∀ (s : State) (e : Event) (es : List Event), s.rst = false → s.pending = e :: es → e.allowed false = true →
    ∃ t, step s = .next t) ∧
  (∀ s t : State, step s = .next t →
    (s.ill = true ∧ t.ill = false) ∨ (s.rv = true ∧ t.rv = false) → underReset s)

/-- R22, R97: an illegal word written to CMD sets ILL and changes no other register; nothing else sets ILL, and only
reset clears it. -/
def Obligations.IllegalCommandAloneSetsIll : Prop :=
  (∀ (s : State) (es : List Event) (w : Word) (r : Illegal), s.rst = false →
    s.pending = .write 0x00 4 w :: es → decodeWord w = .error r →
    step s = .next { s with ill := true, pending := es }) ∧
  (∀ s t : State, step s = .next t → s.ill = false → t.ill = true →
    ∃ e es, s.pending = e :: es ∧ e.writesIllegal = true) ∧
  (∀ s t : State, step s = .next t → s.ill = true → t.ill = false → underReset s)

/-- R98: over any run without reset, ILL is 1 at the end exactly when it was 1 before or some event wrote an illegal
word, and later legal commands execute as if ILL were 0. -/
def Obligations.IllIsStickyAndMissesNothing : Prop :=
  (∀ (s t : State) (es : List Event), s.rst = false → (∀ e ∈ es, e.noReset = true) → Serves s es t →
    t.ill = (s.ill || es.any Event.writesIllegal)) ∧
  (∀ s : State, (readAt (slotOffset .status) s).getLsbD 0 = s.ill) ∧
  (∀ (i : Instr) (s : State) (b : Bool), ∃ t,
    exec i s = .next t ∧ t.ill = s.ill ∧ exec i { s with ill := b } = .next { t with ill := b })

/-- R23: RV and KIND are written by a legal VRD, with its RESULT, and by no other command; the tag of RESULT follows
from KIND. -/
def Obligations.ReadSetsValidAndKind : Prop :=
  (∀ (k : Kind) (e : Endian) (s : State), ∃ v : Word,
    exec (Instr.vrd k e) s = .next { s with result := v, rv := true, kind := k.code }) ∧
  (∀ (i : Instr) (s t : State), commandGroup i ≠ .read → exec i s = .next t →
    t.rv = s.rv ∧ t.kind = s.kind) ∧
  (∀ (w : Word) (r : Illegal) (s t : State), decodeWord w = .error r → execWord w s = .next t →
    t.rv = s.rv ∧ t.kind = s.kind) ∧
  State.reset.rv = false ∧ State.reset.kind = 0 ∧
  (∀ s : State, s.rv = true →
    (s.kind = 0 ∨ s.kind = 5 ∨ s.kind = 6 → resultTag s = some .u8) ∧
    (s.kind = 1 → resultTag s = some .u16) ∧ (s.kind = 2 → resultTag s = some .i16) ∧
    (s.kind = 3 → resultTag s = some .u32) ∧ (s.kind = 4 → resultTag s = some .f32)) ∧
  (∀ s : State, s.rv = false → resultTag s = none)

/-- R15, R18, R19, R20, R25, R26: each register has only its writers, over every step of the machine. -/
def Obligations.EachRegisterHasOnlyItsWriters : Prop :=
  ∀ s t : State, step s = .next t → ¬ underReset s →
    (s.pending = [] → t = s) ∧
    (t.data ≠ s.data → ∃ v es, s.pending = .write (slotOffset .data) 4 v :: es ∧ t.data = v) ∧
    (t.result ≠ s.result ∨ t.rv ≠ s.rv ∨ t.kind ≠ s.kind →
      ∃ e es, s.pending = e :: es ∧ e.runsGroup .read = true) ∧
    (t.crc ≠ s.crc → ∃ e es, s.pending = e :: es ∧ e.runsGroup .crc = true) ∧
    (∀ i : Fin 4, winByte t i ≠ winByte s i →
      ∃ e es, s.pending = e :: es ∧
        (e.runsGroup .write = true ∨
         ∃ off v, e = .write off 4 v ∧ off.toNat = 0x14 + 4 * i.val ∧ winByte t i = v.extractLsb' 0 8))

/-- R118 (derived there from R19, R23, R97): RESULT, RV and KIND outlast every run that executes no VRD: writes, CRC commands and illegal words
included. -/
def Obligations.ResultOutlastsOtherCommands : Prop :=
  ∀ (s t : State) (es : List Event), s.rst = false →
    (∀ e ∈ es, e.noReset = true ∧ e.runsGroup .read = false) → Serves s es t →
    t.result = s.result ∧ t.rv = s.rv ∧ t.kind = s.kind

/-! ## The port (spec/20_memory.md) -/

/-- R32: the register map: what an aligned 32-bit read of each slot returns and what a write does, and that a step
serves exactly that. -/
def Obligations.RegisterMap : Prop :=
  (∀ s : State,
    readAt 0x00 s = 0x00000000 ∧ readAt 0x04 s = s.data ∧ readAt 0x08 s = s.result ∧
    readAt 0x0C s = s.crc.setWidth 32 ∧
    (readAt 0x10 s).toNat = s.ill.toNat + 2 * s.rv.toNat + 4 * s.kind.toNat ∧
    readAt 0x14 s = s.win0.setWidth 32 ∧ readAt 0x18 s = s.win1.setWidth 32 ∧
    readAt 0x1C s = s.win2.setWidth 32 ∧ readAt 0x20 s = s.win3.setWidth 32 ∧
    ∀ off : BitVec 6, 0x24 ≤ off → readAt off s = 0x00000000) ∧
  (∀ (s : State) (v : Word),
    writeAt 0x00 v s = execWord v s ∧ writeAt 0x04 v s = .next { s with data := v } ∧
    writeAt 0x08 v s = .next s ∧ writeAt 0x0C v s = .next s ∧ writeAt 0x10 v s = .next s ∧
    writeAt 0x14 v s = .next { s with win0 := v.extractLsb' 0 8 } ∧
    writeAt 0x18 v s = .next { s with win1 := v.extractLsb' 0 8 } ∧
    writeAt 0x1C v s = .next { s with win2 := v.extractLsb' 0 8 } ∧
    writeAt 0x20 v s = .next { s with win3 := v.extractLsb' 0 8 } ∧
    ∀ off : BitVec 6, 0x24 ≤ off → writeAt off v s = .next s) ∧
  (∀ (s : State) (es : List Event) (off : BitVec 6), s.rst = false → off.extractLsb' 0 2 = 0 →
    s.pending = .read off 4 :: es →
    step s = .next { s with pending := es, replies := s.replies ++ [readAt off s] }) ∧
  (∀ (s : State) (es : List Event) (off : BitVec 6) (v : Word), s.rst = false → off.extractLsb' 0 2 = 0 →
    s.pending = .write off 4 v :: es → step s = writeAt off v { s with pending := es })

/-- R35: reading a slot any number of times changes no register and returns the same value each time. -/
def Obligations.ReadsHaveNoSideEffect : Prop :=
  ∀ (s : State) (off : BitVec 6) (n : Nat), s.rst = false → off.extractLsb' 0 2 = 0 →
    Serves s (List.replicate n (.read off 4))
      { s with pending := [], replies := s.replies ++ List.replicate n (readAt off s) }

/-- R36 (derived there from R32, R90): writing DATA or WINi twice is writing it once; writes to RESULT, CRC, STATUS and the reserved slots do
nothing; a CMD write is not idempotent in general. -/
def Obligations.WriteIdempotence : Prop :=
  (∀ (off : BitVec 6) (v : Word) (s : State), off.extractLsb' 0 2 = 0 → off ≠ slotOffset .cmd →
    ∃ t, writeAt off v s = .next t ∧ writeAt off v t = .next t) ∧
  (∀ (off : BitVec 6) (v : Word) (s : State),
    off = slotOffset .result ∨ off = slotOffset .crc ∨ off = slotOffset .status ∨ 0x24 ≤ off →
    writeAt off v s = .next s) ∧
  (∃ (w : Word) (s t u : State), writeAt (slotOffset .cmd) w s = .next t ∧
    writeAt (slotOffset .cmd) w t = .next u ∧ u ≠ t)

/-- R33, R99: a step stops exactly when the next event is an access that is narrow, wide or misaligned, or made while
rst is asserted; the stop is a refusal, never a fault. -/
def Obligations.RefusedExactlyOutsideContract : Prop :=
  ∀ s : State,
    ((∃ r, step s = .refused r) ↔
      ∃ (es : List Event) (off : BitVec 6) (size : Nat),
        (s.pending = .read off size :: es ∨ ∃ v, s.pending = .write off size v :: es) ∧
        (s.rst = true ∨ size ≠ 4 ∨ off.extractLsb' 0 2 ≠ 0)) ∧
    (∀ f : Fault, step s ≠ .fault f) ∧
    (∀ m : String, step s ≠ .refused (.notModelled m))

/-- R33, R96, R98, R111: a run completes exactly when every event is inside the interface contract. -/
def Obligations.RunCompletesExactlyInContract : Prop :=
  ∀ (s : State) (es : List Event), (∃ t, Serves s es t) ↔ inContract s.rst es = true

/-- R45: events take effect one at a time in arrival order: a run over two sequences is a run over the first and then
one over the second from the state it left. -/
def Obligations.EventsTakeEffectInOrder : Prop :=
  ∀ (s t : State) (es es' : List Event),
    Serves s (es ++ es') t ↔ ∃ u, Serves s es u ∧ Serves u es' t

/-- R17, R48, R58: a legal word written to CMD executes its command in that step, on the state without the event; and
so does a word placed by withFetchWord (the model's own operation, log entry 10). -/
def Obligations.StepRunsTheDecodedCommand : Prop :=
  (∀ (s : State) (es : List Event) (w : Word) (i : Instr), s.rst = false →
    s.pending = .write 0x00 4 w :: es → decodeWord w = .ok i → step s = exec i { s with pending := es }) ∧
  (∀ (s : State) (w : Word) (i : Instr), decodeTableWord 32 w.toNat = some i →
    step (s.withFetchWord 32 w.toNat) = exec i { s with rst := false })

/-- R117: no latency hazard: RESULT, WINi and CRC read straight after the command that writes them give the new
value. -/
def Obligations.ResultVisibleAtNextAccess : Prop :=
  (∀ (k : Kind) (e : Endian) (s : State), s.rst = false → ∃ t u,
    exec (Instr.vrd k e) s = .next t ∧
    Serves s [.write 0x00 4 (encode (Instr.vrd k e)), .read 0x08 4] u ∧ u.replies = s.replies ++ [t.result]) ∧
  (∀ (k : Kind) (e : Endian) (s : State) (i : Fin 4) (off : BitVec 6), s.rst = false →
    off.toNat = 0x14 + 4 * i.val → ∃ t u,
    exec (Instr.vwr k e) s = .next t ∧
    Serves s [.write 0x00 4 (encode (Instr.vwr k e)), .read off 4] u ∧
    u.replies = s.replies ++ [(winByte t i).setWidth 32]) ∧
  (∀ (b : Byte) (s : State), s.rst = false → ∃ t u,
    exec (.crcByte b) s = .next t ∧
    Serves s [.write 0x00 4 (encode (.crcByte b)), .read 0x0C 4] u ∧ u.replies = s.replies ++ [t.crc.setWidth 32])

/-! ## Invariant -/

/-- R19, R21, R23, R111: every step keeps the invariant: KIND is a kind's code and RESULT fits it, both at their reset
values while RV = 0, and every register at its reset value while rst is asserted. -/
def Obligations.StepKeepsInvariant : Prop :=
  ∀ s t : State, BlockInv s → step s = .next t → BlockInv t

/-- The invariant holds at reset. -/
def Obligations.ResetMeetsInvariant : Prop :=
  BlockInv State.reset

/-! ## The host's side of the port -/

/-- R9, R31, R108: BASE is a multiple of 64; a host address reaches the block exactly when it is one of the 64 at BASE,
with its offset; and on a platform an access reaches no block whose window does not hold its address. The model's part:
that an access reaches every block whose window holds it, overlapping windows included (log entry 15), and that it
arrives as an event with the 6-bit offset from BASE (log entry 6). -/
def Obligations.HostAddressesReachTheirBlock : Prop :=
  (∀ base : Base, base.address % 64 = 0) ∧
  (∀ (base : Base) (addr : Nat) (off : BitVec 6),
    portOffset? base addr = some off ↔ addr = base.address + off.toNat) ∧
  (∀ (p : List PlatformBlock) (addr size n : Nat) (b : PlatformBlock), p[n]? = some b →
    ¬ (b.base.address ≤ addr ∧ addr < b.base.address + 64) →
    (deliver (.read addr size) p)[n]? = some b ∧ ∀ v, (deliver (.write addr size v) p)[n]? = some b) ∧
  (∀ (p : List PlatformBlock) (addr size n : Nat) (b : PlatformBlock) (off : BitVec 6), p[n]? = some b →
    addr = b.base.address + off.toNat →
    (deliver (.read addr size) p)[n]? =
      some { b with state := { b.state with pending := b.state.pending ++ [.read off size] } } ∧
    ∀ v, (deliver (.write addr size v) p)[n]? =
      some { b with state := { b.state with pending := b.state.pending ++ [.write off size v] } })

/-- R121 (derived there from R91): a session over n bytes is n + 1 accesses, one CRC.INIT and one CRC.BYTE per byte, and
n + 2 when R13's closing read of CRC is counted; that a session is the former is the model's choice (log entry 19). R121
bounds accesses, not time; the time clause, n + 1 times T_ACCESS for every T_ACCESS (R9), is the model's reading of R120, with
one natural number T_ACCESS for every access (log entry 7). -/
def Obligations.SessionWorkIsLinear : Prop :=
  ∀ m : List Byte,
    accessCount (crcOverEvents m) = m.length + 1 ∧
    accessCount (sessionWithReadEvents m) = m.length + 2 ∧
    ∀ tAccess : AccessTime, busTime tAccess (crcOverEvents m) = (m.length + 1) * tAccess
end

