-- ==== Sys2Proof/Laws/State.lean ====
section
/-! SUPPORT. What each update of the state leaves in each field: one lemma per field per update. -/

namespace Sys2Proof.Machine

/-! ## `takeEvent` -/

@[simp] theorem takeEvent_data (s : State) : (takeEvent s).data = s.data := rfl
@[simp] theorem takeEvent_result (s : State) : (takeEvent s).result = s.result := rfl
@[simp] theorem takeEvent_crc (s : State) : (takeEvent s).crc = s.crc := rfl
@[simp] theorem takeEvent_ill (s : State) : (takeEvent s).ill = s.ill := rfl
@[simp] theorem takeEvent_rv (s : State) : (takeEvent s).rv = s.rv := rfl
@[simp] theorem takeEvent_kind (s : State) : (takeEvent s).kind = s.kind := rfl
@[simp] theorem takeEvent_win0 (s : State) : (takeEvent s).win0 = s.win0 := rfl
@[simp] theorem takeEvent_win1 (s : State) : (takeEvent s).win1 = s.win1 := rfl
@[simp] theorem takeEvent_win2 (s : State) : (takeEvent s).win2 = s.win2 := rfl
@[simp] theorem takeEvent_win3 (s : State) : (takeEvent s).win3 = s.win3 := rfl
@[simp] theorem takeEvent_rst (s : State) : (takeEvent s).rst = s.rst := rfl
@[simp] theorem takeEvent_pending (s : State) : (takeEvent s).pending = s.pending.tail := rfl
@[simp] theorem takeEvent_replies (s : State) : (takeEvent s).replies = s.replies := rfl

/-! ## `reply` -/

@[simp] theorem reply_data (v : Word) (s : State) : (reply v s).data = s.data := rfl
@[simp] theorem reply_result (v : Word) (s : State) : (reply v s).result = s.result := rfl
@[simp] theorem reply_crc (v : Word) (s : State) : (reply v s).crc = s.crc := rfl
@[simp] theorem reply_ill (v : Word) (s : State) : (reply v s).ill = s.ill := rfl
@[simp] theorem reply_rv (v : Word) (s : State) : (reply v s).rv = s.rv := rfl
@[simp] theorem reply_kind (v : Word) (s : State) : (reply v s).kind = s.kind := rfl
@[simp] theorem reply_win0 (v : Word) (s : State) : (reply v s).win0 = s.win0 := rfl
@[simp] theorem reply_win1 (v : Word) (s : State) : (reply v s).win1 = s.win1 := rfl
@[simp] theorem reply_win2 (v : Word) (s : State) : (reply v s).win2 = s.win2 := rfl
@[simp] theorem reply_win3 (v : Word) (s : State) : (reply v s).win3 = s.win3 := rfl
@[simp] theorem reply_rst (v : Word) (s : State) : (reply v s).rst = s.rst := rfl
@[simp] theorem reply_pending (v : Word) (s : State) : (reply v s).pending = s.pending := rfl
@[simp] theorem reply_replies (v : Word) (s : State) : (reply v s).replies = s.replies ++ [v] := rfl

/-! ## `enqueue` -/

@[simp] theorem enqueue_data (e : Event) (s : State) : (enqueue e s).data = s.data := rfl
@[simp] theorem enqueue_result (e : Event) (s : State) : (enqueue e s).result = s.result := rfl
@[simp] theorem enqueue_crc (e : Event) (s : State) : (enqueue e s).crc = s.crc := rfl
@[simp] theorem enqueue_ill (e : Event) (s : State) : (enqueue e s).ill = s.ill := rfl
@[simp] theorem enqueue_rv (e : Event) (s : State) : (enqueue e s).rv = s.rv := rfl
@[simp] theorem enqueue_kind (e : Event) (s : State) : (enqueue e s).kind = s.kind := rfl
@[simp] theorem enqueue_win0 (e : Event) (s : State) : (enqueue e s).win0 = s.win0 := rfl
@[simp] theorem enqueue_win1 (e : Event) (s : State) : (enqueue e s).win1 = s.win1 := rfl
@[simp] theorem enqueue_win2 (e : Event) (s : State) : (enqueue e s).win2 = s.win2 := rfl
@[simp] theorem enqueue_win3 (e : Event) (s : State) : (enqueue e s).win3 = s.win3 := rfl
@[simp] theorem enqueue_rst (e : Event) (s : State) : (enqueue e s).rst = s.rst := rfl
@[simp] theorem enqueue_pending (e : Event) (s : State) : (enqueue e s).pending = s.pending ++ [e] := rfl
@[simp] theorem enqueue_replies (e : Event) (s : State) : (enqueue e s).replies = s.replies := rfl

/-! ## `raiseIllegalCommand` -/

@[simp] theorem raiseIllegalCommand_data (s : State) : (raiseIllegalCommand s).data = s.data := rfl
@[simp] theorem raiseIllegalCommand_result (s : State) : (raiseIllegalCommand s).result = s.result := rfl
@[simp] theorem raiseIllegalCommand_crc (s : State) : (raiseIllegalCommand s).crc = s.crc := rfl
@[simp] theorem raiseIllegalCommand_ill (s : State) : (raiseIllegalCommand s).ill = true := rfl
@[simp] theorem raiseIllegalCommand_rv (s : State) : (raiseIllegalCommand s).rv = s.rv := rfl
@[simp] theorem raiseIllegalCommand_kind (s : State) : (raiseIllegalCommand s).kind = s.kind := rfl
@[simp] theorem raiseIllegalCommand_win0 (s : State) : (raiseIllegalCommand s).win0 = s.win0 := rfl
@[simp] theorem raiseIllegalCommand_win1 (s : State) : (raiseIllegalCommand s).win1 = s.win1 := rfl
@[simp] theorem raiseIllegalCommand_win2 (s : State) : (raiseIllegalCommand s).win2 = s.win2 := rfl
@[simp] theorem raiseIllegalCommand_win3 (s : State) : (raiseIllegalCommand s).win3 = s.win3 := rfl
@[simp] theorem raiseIllegalCommand_rst (s : State) : (raiseIllegalCommand s).rst = s.rst := rfl
@[simp] theorem raiseIllegalCommand_pending (s : State) : (raiseIllegalCommand s).pending = s.pending := rfl
@[simp] theorem raiseIllegalCommand_replies (s : State) : (raiseIllegalCommand s).replies = s.replies := rfl

/-! ## `recordKind` -/

@[simp] theorem recordKind_data (k : Kind) (s : State) : (recordKind k s).data = s.data := rfl
@[simp] theorem recordKind_result (k : Kind) (s : State) : (recordKind k s).result = s.result := rfl
@[simp] theorem recordKind_crc (k : Kind) (s : State) : (recordKind k s).crc = s.crc := rfl
@[simp] theorem recordKind_ill (k : Kind) (s : State) : (recordKind k s).ill = s.ill := rfl
@[simp] theorem recordKind_rv (k : Kind) (s : State) : (recordKind k s).rv = true := rfl
@[simp] theorem recordKind_kind (k : Kind) (s : State) : (recordKind k s).kind = k.code := rfl
@[simp] theorem recordKind_win0 (k : Kind) (s : State) : (recordKind k s).win0 = s.win0 := rfl
@[simp] theorem recordKind_win1 (k : Kind) (s : State) : (recordKind k s).win1 = s.win1 := rfl
@[simp] theorem recordKind_win2 (k : Kind) (s : State) : (recordKind k s).win2 = s.win2 := rfl
@[simp] theorem recordKind_win3 (k : Kind) (s : State) : (recordKind k s).win3 = s.win3 := rfl
@[simp] theorem recordKind_rst (k : Kind) (s : State) : (recordKind k s).rst = s.rst := rfl
@[simp] theorem recordKind_pending (k : Kind) (s : State) : (recordKind k s).pending = s.pending := rfl
@[simp] theorem recordKind_replies (k : Kind) (s : State) : (recordKind k s).replies = s.replies := rfl

/-! ## `completeRead` -/

@[simp] theorem completeRead_data (k : Kind) (v : Word) (s : State) : (completeRead k v s).data = s.data := rfl
@[simp] theorem completeRead_result (k : Kind) (v : Word) (s : State) : (completeRead k v s).result = v := rfl
@[simp] theorem completeRead_crc (k : Kind) (v : Word) (s : State) : (completeRead k v s).crc = s.crc := rfl
@[simp] theorem completeRead_ill (k : Kind) (v : Word) (s : State) : (completeRead k v s).ill = s.ill := rfl
@[simp] theorem completeRead_rv (k : Kind) (v : Word) (s : State) : (completeRead k v s).rv = true := rfl
@[simp] theorem completeRead_kind (k : Kind) (v : Word) (s : State) : (completeRead k v s).kind = k.code := rfl
@[simp] theorem completeRead_win0 (k : Kind) (v : Word) (s : State) : (completeRead k v s).win0 = s.win0 := rfl
@[simp] theorem completeRead_win1 (k : Kind) (v : Word) (s : State) : (completeRead k v s).win1 = s.win1 := rfl
@[simp] theorem completeRead_win2 (k : Kind) (v : Word) (s : State) : (completeRead k v s).win2 = s.win2 := rfl
@[simp] theorem completeRead_win3 (k : Kind) (v : Word) (s : State) : (completeRead k v s).win3 = s.win3 := rfl
@[simp] theorem completeRead_rst (k : Kind) (v : Word) (s : State) : (completeRead k v s).rst = s.rst := rfl
@[simp] theorem completeRead_pending (k : Kind) (v : Word) (s : State) : (completeRead k v s).pending = s.pending := rfl
@[simp] theorem completeRead_replies (k : Kind) (v : Word) (s : State) : (completeRead k v s).replies = s.replies := rfl

/-! ## `resetRegisters` -/

@[simp] theorem resetRegisters_data (s : State) : (resetRegisters s).data = 0 := rfl
@[simp] theorem resetRegisters_result (s : State) : (resetRegisters s).result = 0 := rfl
@[simp] theorem resetRegisters_crc (s : State) : (resetRegisters s).crc = 0xFFFF := rfl
@[simp] theorem resetRegisters_ill (s : State) : (resetRegisters s).ill = false := rfl
@[simp] theorem resetRegisters_rv (s : State) : (resetRegisters s).rv = false := rfl
@[simp] theorem resetRegisters_kind (s : State) : (resetRegisters s).kind = 0 := rfl
@[simp] theorem resetRegisters_win0 (s : State) : (resetRegisters s).win0 = 0 := rfl
@[simp] theorem resetRegisters_win1 (s : State) : (resetRegisters s).win1 = 0 := rfl
@[simp] theorem resetRegisters_win2 (s : State) : (resetRegisters s).win2 = 0 := rfl
@[simp] theorem resetRegisters_win3 (s : State) : (resetRegisters s).win3 = 0 := rfl
@[simp] theorem resetRegisters_rst (s : State) : (resetRegisters s).rst = s.rst := rfl
@[simp] theorem resetRegisters_pending (s : State) : (resetRegisters s).pending = s.pending := rfl
@[simp] theorem resetRegisters_replies (s : State) : (resetRegisters s).replies = s.replies := rfl

/-! ## `setWin1` -/

@[simp] theorem setWin1_data (e : Endian) (v : Byte) (s : State) : (setWin1 e v s).data = s.data := rfl
@[simp] theorem setWin1_result (e : Endian) (v : Byte) (s : State) : (setWin1 e v s).result = s.result := rfl
@[simp] theorem setWin1_crc (e : Endian) (v : Byte) (s : State) : (setWin1 e v s).crc = s.crc := rfl
@[simp] theorem setWin1_ill (e : Endian) (v : Byte) (s : State) : (setWin1 e v s).ill = s.ill := rfl
@[simp] theorem setWin1_rv (e : Endian) (v : Byte) (s : State) : (setWin1 e v s).rv = s.rv := rfl
@[simp] theorem setWin1_kind (e : Endian) (v : Byte) (s : State) : (setWin1 e v s).kind = s.kind := rfl
@[simp] theorem setWin1_win0 (e : Endian) (v : Byte) (s : State) : (setWin1 e v s).win0 = v := rfl
@[simp] theorem setWin1_win1 (e : Endian) (v : Byte) (s : State) : (setWin1 e v s).win1 = s.win1 := rfl
@[simp] theorem setWin1_win2 (e : Endian) (v : Byte) (s : State) : (setWin1 e v s).win2 = s.win2 := rfl
@[simp] theorem setWin1_win3 (e : Endian) (v : Byte) (s : State) : (setWin1 e v s).win3 = s.win3 := rfl
@[simp] theorem setWin1_rst (e : Endian) (v : Byte) (s : State) : (setWin1 e v s).rst = s.rst := rfl
@[simp] theorem setWin1_pending (e : Endian) (v : Byte) (s : State) : (setWin1 e v s).pending = s.pending := rfl
@[simp] theorem setWin1_replies (e : Endian) (v : Byte) (s : State) : (setWin1 e v s).replies = s.replies := rfl

/-! ## `setWin2` -/

@[simp] theorem setWin2_data (e : Endian) (v : Half) (s : State) : (setWin2 e v s).data = s.data := by cases e <;> rfl
@[simp] theorem setWin2_result (e : Endian) (v : Half) (s : State) : (setWin2 e v s).result = s.result := by cases e <;> rfl
@[simp] theorem setWin2_crc (e : Endian) (v : Half) (s : State) : (setWin2 e v s).crc = s.crc := by cases e <;> rfl
@[simp] theorem setWin2_ill (e : Endian) (v : Half) (s : State) : (setWin2 e v s).ill = s.ill := by cases e <;> rfl
@[simp] theorem setWin2_rv (e : Endian) (v : Half) (s : State) : (setWin2 e v s).rv = s.rv := by cases e <;> rfl
@[simp] theorem setWin2_kind (e : Endian) (v : Half) (s : State) : (setWin2 e v s).kind = s.kind := by cases e <;> rfl
@[simp] theorem setWin2_little_win0 (v : Half) (s : State) : (setWin2 .little v s).win0 = halfLow v := rfl
@[simp] theorem setWin2_big_win0 (v : Half) (s : State) : (setWin2 .big v s).win0 = halfHigh v := rfl
@[simp] theorem setWin2_little_win1 (v : Half) (s : State) : (setWin2 .little v s).win1 = halfHigh v := rfl
@[simp] theorem setWin2_big_win1 (v : Half) (s : State) : (setWin2 .big v s).win1 = halfLow v := rfl
@[simp] theorem setWin2_win2 (e : Endian) (v : Half) (s : State) : (setWin2 e v s).win2 = s.win2 := by cases e <;> rfl
@[simp] theorem setWin2_win3 (e : Endian) (v : Half) (s : State) : (setWin2 e v s).win3 = s.win3 := by cases e <;> rfl
@[simp] theorem setWin2_rst (e : Endian) (v : Half) (s : State) : (setWin2 e v s).rst = s.rst := by cases e <;> rfl
@[simp] theorem setWin2_pending (e : Endian) (v : Half) (s : State) : (setWin2 e v s).pending = s.pending := by cases e <;> rfl
@[simp] theorem setWin2_replies (e : Endian) (v : Half) (s : State) : (setWin2 e v s).replies = s.replies := by cases e <;> rfl

/-! ## `setWin4` -/

@[simp] theorem setWin4_data (e : Endian) (v : Word) (s : State) : (setWin4 e v s).data = s.data := by cases e <;> rfl
@[simp] theorem setWin4_result (e : Endian) (v : Word) (s : State) : (setWin4 e v s).result = s.result := by cases e <;> rfl
@[simp] theorem setWin4_crc (e : Endian) (v : Word) (s : State) : (setWin4 e v s).crc = s.crc := by cases e <;> rfl
@[simp] theorem setWin4_ill (e : Endian) (v : Word) (s : State) : (setWin4 e v s).ill = s.ill := by cases e <;> rfl
@[simp] theorem setWin4_rv (e : Endian) (v : Word) (s : State) : (setWin4 e v s).rv = s.rv := by cases e <;> rfl
@[simp] theorem setWin4_kind (e : Endian) (v : Word) (s : State) : (setWin4 e v s).kind = s.kind := by cases e <;> rfl
@[simp] theorem setWin4_little_win0 (v : Word) (s : State) : (setWin4 .little v s).win0 = byteOf v 0 := rfl
@[simp] theorem setWin4_big_win0 (v : Word) (s : State) : (setWin4 .big v s).win0 = byteOf v 3 := rfl
@[simp] theorem setWin4_little_win1 (v : Word) (s : State) : (setWin4 .little v s).win1 = byteOf v 1 := rfl
@[simp] theorem setWin4_big_win1 (v : Word) (s : State) : (setWin4 .big v s).win1 = byteOf v 2 := rfl
@[simp] theorem setWin4_little_win2 (v : Word) (s : State) : (setWin4 .little v s).win2 = byteOf v 2 := rfl
@[simp] theorem setWin4_big_win2 (v : Word) (s : State) : (setWin4 .big v s).win2 = byteOf v 1 := rfl
@[simp] theorem setWin4_little_win3 (v : Word) (s : State) : (setWin4 .little v s).win3 = byteOf v 3 := rfl
@[simp] theorem setWin4_big_win3 (v : Word) (s : State) : (setWin4 .big v s).win3 = byteOf v 0 := rfl
@[simp] theorem setWin4_rst (e : Endian) (v : Word) (s : State) : (setWin4 e v s).rst = s.rst := by cases e <;> rfl
@[simp] theorem setWin4_pending (e : Endian) (v : Word) (s : State) : (setWin4 e v s).pending = s.pending := by cases e <;> rfl
@[simp] theorem setWin4_replies (e : Endian) (v : Word) (s : State) : (setWin4 e v s).replies = s.replies := by cases e <;> rfl

/-! ## `storeSlot`: no command register, and nothing but DATA and the window -/

@[simp] theorem storeSlot_result (sl : Option Slot) (v : Word) (s : State) : (storeSlot sl v s).result = s.result := by
  rcases sl with _ | _ | _ | _ | _ | _ | _ | _ | _ | _ <;> rfl
@[simp] theorem storeSlot_crc (sl : Option Slot) (v : Word) (s : State) : (storeSlot sl v s).crc = s.crc := by
  rcases sl with _ | _ | _ | _ | _ | _ | _ | _ | _ | _ <;> rfl
@[simp] theorem storeSlot_ill (sl : Option Slot) (v : Word) (s : State) : (storeSlot sl v s).ill = s.ill := by
  rcases sl with _ | _ | _ | _ | _ | _ | _ | _ | _ | _ <;> rfl
@[simp] theorem storeSlot_rv (sl : Option Slot) (v : Word) (s : State) : (storeSlot sl v s).rv = s.rv := by
  rcases sl with _ | _ | _ | _ | _ | _ | _ | _ | _ | _ <;> rfl
@[simp] theorem storeSlot_kind (sl : Option Slot) (v : Word) (s : State) : (storeSlot sl v s).kind = s.kind := by
  rcases sl with _ | _ | _ | _ | _ | _ | _ | _ | _ | _ <;> rfl
@[simp] theorem storeSlot_rst (sl : Option Slot) (v : Word) (s : State) : (storeSlot sl v s).rst = s.rst := by
  rcases sl with _ | _ | _ | _ | _ | _ | _ | _ | _ | _ <;> rfl
@[simp] theorem storeSlot_pending (sl : Option Slot) (v : Word) (s : State) : (storeSlot sl v s).pending = s.pending := by
  rcases sl with _ | _ | _ | _ | _ | _ | _ | _ | _ | _ <;> rfl
@[simp] theorem storeSlot_replies (sl : Option Slot) (v : Word) (s : State) : (storeSlot sl v s).replies = s.replies := by
  rcases sl with _ | _ | _ | _ | _ | _ | _ | _ | _ | _ <;> rfl

/-! ## `driveRst` and `idle` -/

theorem driveRst_asserted (s : State) : driveRst true s = { resetRegisters s with rst := true } := rfl

theorem driveRst_low_of_low {s : State} (h : s.rst = false) : driveRst false s = s := by
  simp [driveRst, h]

theorem driveRst_low_of_high {s : State} (h : s.rst = true) :
    driveRst false s = { resetRegisters s with rst := false } := by
  simp [driveRst, h]

@[simp] theorem driveRst_rst (level : Bool) (s : State) : (driveRst level s).rst = level := by
  unfold driveRst
  split
  · rfl
  · cases level <;> simp_all

@[simp] theorem driveRst_pending (level : Bool) (s : State) : (driveRst level s).pending = s.pending := by
  unfold driveRst
  split <;> rfl

@[simp] theorem driveRst_replies (level : Bool) (s : State) : (driveRst level s).replies = s.replies := by
  unfold driveRst
  split <;> rfl

theorem idle_of_low {s : State} (h : s.rst = false) : idle s = s := by
  simp [idle, h]

theorem idle_of_high {s : State} (h : s.rst = true) : idle s = resetRegisters s := by
  simp [idle, h]

end Sys2Proof.Machine
end

