-- ==== Sys2Proof/Laws/Ops.lean ====
section
/-! SUPPORT. One lemma per shared operation: everything it can do. The proofs cite these and do not unfold the step. -/

namespace Sys2Proof.Machine

/-! ## Codes -/

@[simp] theorem Endian_ofBit_bit (e : Endian) : Endian.ofBit e.bit = e := by
  cases e <;> rfl

@[simp] theorem Kind_ofCode_code (k : Kind) : Kind.ofCode? k.code = some k := by
  cases k <;> rfl

theorem Kind_code_of_ofCode {c : BitVec 3} {k : Kind} (h : Kind.ofCode? c = some k) : c = k.code := by
  revert c k
  decide

/-! ## The register map -/

@[simp] theorem slotAt_slotOffset (sl : Slot) : slotAt (slotOffset sl) = some sl := by
  cases sl <;> rfl

theorem slotAt_eq_cmd_iff (off : BitVec 6) : slotAt off = some .cmd ↔ off = slotOffset .cmd := by
  revert off
  decide

/-! ## The interface contract -/

theorem accessRefusal_eq_none_iff (rst : Bool) (off : BitVec 6) (size : Nat) :
    accessRefusal? rst off size = none ↔ rst = false ∧ size = 4 ∧ off.extractLsb' 0 2 = 0 := by
  unfold accessRefusal?
  split
  · simp_all
  · split
    · simp_all
    · split <;> simp_all

theorem Event.allowed_read (rst : Bool) (off : BitVec 6) (size : Nat) :
    (Event.read off size).allowed rst = true ↔ accessRefusal? rst off size = none := by
  simp only [Event.allowed, decide_eq_true_eq, accessRefusal_eq_none_iff]

theorem Event.allowed_write (rst : Bool) (off : BitVec 6) (size : Nat) (v : Word) :
    (Event.write off size v).allowed rst = true ↔ accessRefusal? rst off size = none := by
  simp only [Event.allowed, decide_eq_true_eq, accessRefusal_eq_none_iff]

/-! ## Meanings -/

/-- Everything a command can do: it answers a next state, and that state differs from the old one in the accumulator
only, or is the end of a read, or differs in the window only. -/
theorem exec_cases (i : Instr) (s : State) :
    (commandGroup i = .crc ∧ ∃ c, exec i s = .next { s with crc := c }) ∨
    (commandGroup i = .read ∧ ∃ k v, exec i s = .next (completeRead k v s)) ∨
    (commandGroup i = .write ∧ ∃ b0 b1 b2 b3,
      exec i s = .next { s with win0 := b0, win1 := b1, win2 := b2, win3 := b3 }) := by
  cases i with
  | crcInit => exact .inl ⟨rfl, _, rfl⟩
  | crcByte b => exact .inl ⟨rfl, _, rfl⟩
  | vrdUint8 e => exact .inr (.inl ⟨rfl, _, _, rfl⟩)
  | vrdUint16 e => exact .inr (.inl ⟨rfl, _, _, rfl⟩)
  | vrdInt16 e => exact .inr (.inl ⟨rfl, _, _, rfl⟩)
  | vrdUint32 e => exact .inr (.inl ⟨rfl, _, _, rfl⟩)
  | vrdFloat32 e => exact .inr (.inl ⟨rfl, _, _, rfl⟩)
  | vrdEnum8 e => exact .inr (.inl ⟨rfl, _, _, rfl⟩)
  | vrdBitfield8 e => exact .inr (.inl ⟨rfl, _, _, rfl⟩)
  | vwrUint8 e => exact .inr (.inr ⟨rfl, _, s.win1, s.win2, s.win3, rfl⟩)
  | vwrUint16 e => cases e <;> exact .inr (.inr ⟨rfl, _, _, s.win2, s.win3, rfl⟩)
  | vwrInt16 e => cases e <;> exact .inr (.inr ⟨rfl, _, _, s.win2, s.win3, rfl⟩)
  | vwrUint32 e => cases e <;> exact .inr (.inr ⟨rfl, _, _, _, _, rfl⟩)
  | vwrFloat32 e => cases e <;> exact .inr (.inr ⟨rfl, _, _, _, _, rfl⟩)
  | vwrEnum8 e => exact .inr (.inr ⟨rfl, _, s.win1, s.win2, s.win3, rfl⟩)
  | vwrBitfield8 e => exact .inr (.inr ⟨rfl, _, s.win1, s.win2, s.win3, rfl⟩)

/-- No command stops. -/
theorem exec_answers (i : Instr) (s : State) : ∃ t, exec i s = .next t := by
  rcases exec_cases i s with ⟨-, c, h⟩ | ⟨-, k, v, h⟩ | ⟨-, b0, b1, b2, b3, h⟩ <;> exact ⟨_, h⟩

/-- No command touches the port, the reset input, DATA or STATUS.ILL. -/
theorem exec_keeps {i : Instr} {s t : State} (h : exec i s = .next t) :
    t.pending = s.pending ∧ t.replies = s.replies ∧ t.rst = s.rst ∧ t.data = s.data ∧ t.ill = s.ill := by
  rcases exec_cases i s with ⟨-, c, h'⟩ | ⟨-, k, v, h'⟩ | ⟨-, b0, b1, b2, b3, h'⟩ <;>
    (rw [h] at h'; cases h'; simp)

/-! ## The step -/

/-- Everything a step that answers can have done. -/
theorem step_cases {s t : State} (h : step s = .next t) :
    (s.pending = [] ∧ t = idle s) ∨
    ∃ e es, s.pending = e :: es ∧
      ((∃ level, e = .setRst level ∧ t = driveRst level (takeEvent s)) ∨
       (s.rst = false ∧ ∃ off : BitVec 6, off.extractLsb' 0 2 = 0 ∧
         ((e = .read off 4 ∧ t = reply (readAt off s) (takeEvent s)) ∨
          ∃ v, e = .write off 4 v ∧
            ((off = slotOffset .cmd ∧ ∃ i, decodeWord v = .ok i ∧ exec i (takeEvent s) = .next t) ∨
             (off = slotOffset .cmd ∧ (∃ r, decodeWord v = .error r) ∧ t = raiseIllegalCommand (takeEvent s)) ∨
             (off ≠ slotOffset .cmd ∧ t = storeSlot (slotAt off) v (takeEvent s)))))) := by
  unfold step serveNext at h
  split at h
  next hp => exact .inl ⟨hp, by cases h; rfl⟩
  next e es hp =>
    refine .inr ⟨e, es, hp, ?_⟩
    cases e with
    | setRst level => exact .inl ⟨level, rfl, by cases h; rfl⟩
    | read off size =>
      simp only [serve] at h
      split at h
      · cases h
      next hr =>
        obtain ⟨hrst, rfl, hal⟩ := (accessRefusal_eq_none_iff _ _ _).1 hr
        exact .inr ⟨hrst, off, hal, .inl ⟨rfl, by cases h; rfl⟩⟩
    | write off size v =>
      simp only [serve] at h
      split at h
      · cases h
      next hr =>
        obtain ⟨hrst, rfl, hal⟩ := (accessRefusal_eq_none_iff _ _ _).1 hr
        refine .inr ⟨hrst, off, hal, .inr ⟨v, rfl, ?_⟩⟩
        unfold writeAt at h
        split at h
        next hs =>
          have hoff := (slotAt_eq_cmd_iff off).1 hs
          unfold execWord at h
          split at h
          next i hd => exact .inl ⟨hoff, i, hd, h⟩
          next r hd => exact .inr (.inl ⟨hoff, ⟨r, hd⟩, by cases h; rfl⟩)
        next hs =>
          refine .inr (.inr ⟨fun hc => hs ((slotAt_eq_cmd_iff off).2 hc), ?_⟩)
          cases h
          rfl

/-- When a step stops: the next event is an access outside the interface contract. -/
theorem step_refused {s : State} {r : Refusal} (h : step s = .refused r) :
    ∃ es off size, (s.pending = .read off size :: es ∨ ∃ v, s.pending = .write off size v :: es) ∧
      accessRefusal? s.rst off size = some r := by
  unfold step serveNext at h
  split at h
  · cases h
  next e es hp =>
    cases e with
    | setRst level => cases h
    | read off size =>
      simp only [serve] at h
      split at h
      next hr => cases h; exact ⟨es, off, size, .inl hp, hr⟩
      · cases h
    | write off size v =>
      simp only [serve] at h
      split at h
      next hr => cases h; exact ⟨es, off, size, .inr ⟨v, hp⟩, hr⟩
      · unfold writeAt at h
        split at h
        · unfold execWord at h
          split at h
          next i hd =>
            obtain ⟨t, ht⟩ := exec_answers i (takeEvent s)
            rw [ht] at h
            cases h
          · cases h
        · cases h

end Sys2Proof.Machine
end

