-- ==== Sys2Proof/Laws/PerInstr.lean ====
section
/-! SUPPORT. Statements about every command as syntax, one lemma per constructor. -/

/-- R59: the command is well formed, and its word matches the row of the opcode table that has its mnemonic. -/
def Sys2Proof.Laws.EncodedInRow.Statement (i : Sys2Proof.Instr) : Prop :=
  i.wellFormed = true ∧
    ∃ r ∈ Sys2Proof.opcodeTable, r.mnemonic = i.mnemonic ∧ r.spelledBy (Sys2Proof.encode i) = true

namespace Sys2Proof.Laws.EncodedInRow

theorem crcInit : Statement .crcInit :=
  ⟨rfl, ⟨"CRC.INIT", 0x10000000, 0xFFFFFFFF⟩, by decide, rfl, rfl⟩

theorem crcByte (b : Byte) : Statement (.crcByte b) := by
  refine ⟨rfl, ⟨"CRC.BYTE", 0x20000000, 0xFFFFFF00⟩, by decide, rfl, ?_⟩
  revert b
  decide

theorem vrdUint8 (e : Endian) : Statement (.vrdUint8 e) :=
  ⟨rfl, ⟨"VRD.uint8", 0x30000000, 0xFFFFFEFF⟩, by decide, rfl, by cases e <;> rfl⟩

theorem vrdUint16 (e : Endian) : Statement (.vrdUint16 e) :=
  ⟨rfl, ⟨"VRD.uint16", 0x30000001, 0xFFFFFEFF⟩, by decide, rfl, by cases e <;> rfl⟩

theorem vrdInt16 (e : Endian) : Statement (.vrdInt16 e) :=
  ⟨rfl, ⟨"VRD.int16", 0x30000002, 0xFFFFFEFF⟩, by decide, rfl, by cases e <;> rfl⟩

theorem vrdUint32 (e : Endian) : Statement (.vrdUint32 e) :=
  ⟨rfl, ⟨"VRD.uint32", 0x30000003, 0xFFFFFEFF⟩, by decide, rfl, by cases e <;> rfl⟩

theorem vrdFloat32 (e : Endian) : Statement (.vrdFloat32 e) :=
  ⟨rfl, ⟨"VRD.float32", 0x30000004, 0xFFFFFEFF⟩, by decide, rfl, by cases e <;> rfl⟩

theorem vrdEnum8 (e : Endian) : Statement (.vrdEnum8 e) :=
  ⟨rfl, ⟨"VRD.enum8", 0x30000005, 0xFFFFFEFF⟩, by decide, rfl, by cases e <;> rfl⟩

theorem vrdBitfield8 (e : Endian) : Statement (.vrdBitfield8 e) :=
  ⟨rfl, ⟨"VRD.bitfield8", 0x30000006, 0xFFFFFEFF⟩, by decide, rfl, by cases e <;> rfl⟩

theorem vwrUint8 (e : Endian) : Statement (.vwrUint8 e) :=
  ⟨rfl, ⟨"VWR.uint8", 0x40000000, 0xFFFFFEFF⟩, by decide, rfl, by cases e <;> rfl⟩

theorem vwrUint16 (e : Endian) : Statement (.vwrUint16 e) :=
  ⟨rfl, ⟨"VWR.uint16", 0x40000001, 0xFFFFFEFF⟩, by decide, rfl, by cases e <;> rfl⟩

theorem vwrInt16 (e : Endian) : Statement (.vwrInt16 e) :=
  ⟨rfl, ⟨"VWR.int16", 0x40000002, 0xFFFFFEFF⟩, by decide, rfl, by cases e <;> rfl⟩

theorem vwrUint32 (e : Endian) : Statement (.vwrUint32 e) :=
  ⟨rfl, ⟨"VWR.uint32", 0x40000003, 0xFFFFFEFF⟩, by decide, rfl, by cases e <;> rfl⟩

theorem vwrFloat32 (e : Endian) : Statement (.vwrFloat32 e) :=
  ⟨rfl, ⟨"VWR.float32", 0x40000004, 0xFFFFFEFF⟩, by decide, rfl, by cases e <;> rfl⟩

theorem vwrEnum8 (e : Endian) : Statement (.vwrEnum8 e) :=
  ⟨rfl, ⟨"VWR.enum8", 0x40000005, 0xFFFFFEFF⟩, by decide, rfl, by cases e <;> rfl⟩

theorem vwrBitfield8 (e : Endian) : Statement (.vwrBitfield8 e) :=
  ⟨rfl, ⟨"VWR.bitfield8", 0x40000006, 0xFFFFFEFF⟩, by decide, rfl, by cases e <;> rfl⟩

end Sys2Proof.Laws.EncodedInRow
end

