-- ==== Sys2Proof/Laws/Run.lean ====
section
/-! SUPPORT. Runs: serving an event does not look at what comes after it, so a run over a list of events can be taken
apart event by event. -/

namespace Sys2Proof.Machine

/-- The same outcome, with another list of events still to come. -/
def withPending (es : List Event) : Result → Result
  | .next t => .next { t with pending := es }
  | .fault f => .fault f
  | .refused r => .refused r

theorem exec_withPending (i : Instr) (s : State) (es : List Event) :
    exec i { s with pending := es } = withPending es (exec i s) := by
  cases i with
  | crcInit => rfl
  | crcByte b => rfl
  | _ e => cases e <;> rfl

theorem readAt_withPending (off : BitVec 6) (s : State) (es : List Event) :
    readAt off { s with pending := es } = readAt off s := by
  unfold readAt
  rcases slotAt off with _ | _ | _ | _ | _ | _ | _ | _ | _ | _ <;> rfl

theorem storeSlot_withPending (sl : Option Slot) (v : Word) (s : State) (es : List Event) :
    storeSlot sl v { s with pending := es } = { storeSlot sl v s with pending := es } := by
  rcases sl with _ | _ | _ | _ | _ | _ | _ | _ | _ | _ <;> rfl

/-- Serving an event does not depend on the events after it. -/
theorem serve_withPending (e : Event) (s : State) (es : List Event) :
    serve e { s with pending := es } = withPending es (serve e s) := by
  cases e with
  | read off size =>
    simp only [serve]
    split
    · rfl
    · rw [readAt_withPending]
      rfl
  | write off size v =>
    simp only [serve]
    split
    · rfl
    · unfold writeAt
      split
      · unfold execWord
        split
        · exact exec_withPending _ _ _
        · rfl
      · rw [storeSlot_withPending]
        rfl
  | setRst level =>
    simp only [serve, driveRst]
    split <;> rfl

/-- A step serves the first event and leaves the others. -/
theorem step_cons (e : Event) (es : List Event) (s : State) :
    step { s with pending := e :: es } = withPending es (serve e s) := by
  rw [← serve_withPending]
  rfl

theorem serves_nil (s t : State) : Serves s [] t ↔ t = { s with pending := [] } := by
  unfold Serves
  simp [run, eq_comm]

/-- A run over `e :: es` serves `e` and then runs over `es`. -/
theorem serves_cons (s t : State) (e : Event) (es : List Event) :
    Serves s (e :: es) t ↔ ∃ u, serve e s = .next u ∧ Serves u es t := by
  unfold Serves
  rw [List.length_cons, run, step_cons]
  cases serve e s with
  | next v => simp [withPending]
  | fault f => cases f
  | refused r => simp [withPending]

/-- What serving an event leaves of the reset input. -/
theorem serve_rst {e : Event} {s t : State} (h : serve e s = .next t) :
    t.rst = e.rstAfter s.rst := by
  cases e with
  | setRst level =>
    cases h
    simp [Event.rstAfter]
  | read off size =>
    simp only [serve] at h
    split at h <;> cases h
    rfl
  | write off size v =>
    simp only [serve] at h
    split at h
    · cases h
    · unfold writeAt at h
      split at h
      · unfold execWord at h
        split at h
        · exact (exec_keeps h).2.2.1
        · cases h
          rfl
      · cases h
        simp [Event.rstAfter]

end Sys2Proof.Machine
end

