-- ==== Sys2Proof/Tests/Slice0.lean ====
section
/-! SUPPORT. Tests against the spec's own vectors (spec/95_test_vectors.md) and words written out from its formats
(spec/30_encoding.md R53 to R55), smoke tests of WellFormed, and a witness for every statement with hypotheses. -/

namespace Sys2Proof.Tests

open Sys2Proof.Machine

/-! ## WellFormed refuses ill-formed terms (R65, R67); a term of `Instr` cannot be ill formed -/

theorem test_wf_crcByte_over_255 : (AsmCommand.crcByte 256).wellFormed = false := by decide
theorem test_wf_vrd_order_missing : (AsmCommand.vrd .uint16 none).wellFormed = false := by decide
theorem test_wf_vwr_order_missing : (AsmCommand.vwr .float32 none).wellFormed = false := by decide
theorem test_wf_writeCommand : (ClientLine.writeCommand (.crcByte 300)).wellFormed = false := by decide
theorem test_wf_command : (ClientLine.command (.vrd .int16 none)).wellFormed = false := by decide
theorem test_wf_crcBytes : (ClientLine.crcBytes [0, 256]).wellFormed = false := by decide
theorem test_wf_crcOver : (ClientLine.crcOver [256]).wellFormed = false := by decide
theorem test_wf_loadWin : (ClientLine.loadWin []).wellFormed = false ∧
    (ClientLine.loadWin [1, 2, 3, 4, 5]).wellFormed = false := by decide

/-! ## Decoding: words written out bit by bit from R53 to R55 -/

theorem test_decode_crcInit : decodeWord 0b0001_0000000000000000000000000000 = .ok .crcInit := by decide
theorem test_decode_crcByte :
    decodeWord 0b0010_00000000000000000000_10100101 = .ok (.crcByte 0xA5) := by decide
theorem test_decode_vrdUint8 :
    decodeWord 0b0011_0000000000000000000_0_00000_000 = .ok (.vrdUint8 .little) ∧
    decodeWord 0b0011_0000000000000000000_1_00000_000 = .ok (.vrdUint8 .big) := by decide
theorem test_decode_vrdUint16 :
    decodeWord 0b0011_0000000000000000000_0_00000_001 = .ok (.vrdUint16 .little) ∧
    decodeWord 0b0011_0000000000000000000_1_00000_001 = .ok (.vrdUint16 .big) := by decide
theorem test_decode_vrdInt16 :
    decodeWord 0b0011_0000000000000000000_0_00000_010 = .ok (.vrdInt16 .little) ∧
    decodeWord 0b0011_0000000000000000000_1_00000_010 = .ok (.vrdInt16 .big) := by decide
theorem test_decode_vrdUint32 :
    decodeWord 0b0011_0000000000000000000_0_00000_011 = .ok (.vrdUint32 .little) ∧
    decodeWord 0b0011_0000000000000000000_1_00000_011 = .ok (.vrdUint32 .big) := by decide
theorem test_decode_vrdFloat32 :
    decodeWord 0b0011_0000000000000000000_0_00000_100 = .ok (.vrdFloat32 .little) ∧
    decodeWord 0b0011_0000000000000000000_1_00000_100 = .ok (.vrdFloat32 .big) := by decide
theorem test_decode_vrdEnum8 :
    decodeWord 0b0011_0000000000000000000_0_00000_101 = .ok (.vrdEnum8 .little) ∧
    decodeWord 0b0011_0000000000000000000_1_00000_101 = .ok (.vrdEnum8 .big) := by decide
theorem test_decode_vrdBitfield8 :
    decodeWord 0b0011_0000000000000000000_0_00000_110 = .ok (.vrdBitfield8 .little) ∧
    decodeWord 0b0011_0000000000000000000_1_00000_110 = .ok (.vrdBitfield8 .big) := by decide
theorem test_decode_vwrUint8 :
    decodeWord 0b0100_0000000000000000000_0_00000_000 = .ok (.vwrUint8 .little) ∧
    decodeWord 0b0100_0000000000000000000_1_00000_000 = .ok (.vwrUint8 .big) := by decide
theorem test_decode_vwrUint16 :
    decodeWord 0b0100_0000000000000000000_0_00000_001 = .ok (.vwrUint16 .little) ∧
    decodeWord 0b0100_0000000000000000000_1_00000_001 = .ok (.vwrUint16 .big) := by decide
theorem test_decode_vwrInt16 :
    decodeWord 0b0100_0000000000000000000_0_00000_010 = .ok (.vwrInt16 .little) ∧
    decodeWord 0b0100_0000000000000000000_1_00000_010 = .ok (.vwrInt16 .big) := by decide
theorem test_decode_vwrUint32 :
    decodeWord 0b0100_0000000000000000000_0_00000_011 = .ok (.vwrUint32 .little) ∧
    decodeWord 0b0100_0000000000000000000_1_00000_011 = .ok (.vwrUint32 .big) := by decide
theorem test_decode_vwrFloat32 :
    decodeWord 0b0100_0000000000000000000_0_00000_100 = .ok (.vwrFloat32 .little) ∧
    decodeWord 0b0100_0000000000000000000_1_00000_100 = .ok (.vwrFloat32 .big) := by decide
theorem test_decode_vwrEnum8 :
    decodeWord 0b0100_0000000000000000000_0_00000_101 = .ok (.vwrEnum8 .little) ∧
    decodeWord 0b0100_0000000000000000000_1_00000_101 = .ok (.vwrEnum8 .big) := by decide
theorem test_decode_vwrBitfield8 :
    decodeWord 0b0100_0000000000000000000_0_00000_110 = .ok (.vwrBitfield8 .little) ∧
    decodeWord 0b0100_0000000000000000000_1_00000_110 = .ok (.vwrBitfield8 .big) := by decide

/-! ## Illegal words (95_test_vectors.md 2.4) -/

theorem test_illegal_words :
    [0x00000000, 0x10000001, 0x11000000, 0x20000100, 0x30000007, 0x30000008, 0x30000200, 0x40000207, 0x50000000,
      0xF0000000].all (fun w => (decodeWord w).toOption.isNone) = true := by decide

theorem test_table_word : decodeTableWord 32 0x20000031 = some (.crcByte 0x31) := by decide

/-! ## Commands: the vectors of 95_test_vectors.md 2.1 to 2.3, one step each -/

/-- Reset, with a window. -/
def win (b0 b1 b2 b3 : Byte) : State :=
  { State.reset with win0 := b0, win1 := b1, win2 := b2, win3 := b3 }

/-- Window EE EE EE EE, and DATA. -/
def data (d : Word) : State := { win 0xEE 0xEE 0xEE 0xEE with data := d }

/-- Reset, with an accumulator. -/
def acc (c : Half) : State := { State.reset with crc := c }

/-- RESULT and the STATUS word, after a command that answers. -/
def resultStatus : Result → Option (Word × Word)
  | .next t => some (t.result, statusWord t)
  | .fault _ => none
  | .refused _ => none

/-- The window, after a command that answers. -/
def window : Result → Option (List Byte)
  | .next t => some [t.win0, t.win1, t.win2, t.win3]
  | .fault _ => none
  | .refused _ => none

/-- The accumulator, after a command that answers. -/
def accumulator : Result → Option Half
  | .next t => some t.crc
  | .fault _ => none
  | .refused _ => none

theorem test_vrdUint8 :
    resultStatus (exec (.vrdUint8 .little) (win 0x64 0x00 0x00 0x00)) = some (0x00000064, 0x00000002) ∧
    resultStatus (exec (.vrdUint8 .big) (win 0xFF 0x00 0x00 0x00)) = some (0x000000FF, 0x00000002) := by decide
theorem test_vrdUint16 :
    resultStatus (exec (.vrdUint16 .big) (win 0x4B 0x37 0x00 0x00)) = some (0x00004B37, 0x00000006) ∧
    resultStatus (exec (.vrdUint16 .little) (win 0x4B 0x37 0x00 0x00)) = some (0x0000374B, 0x00000006) := by decide
theorem test_vrdInt16 :
    resultStatus (exec (.vrdInt16 .little) (win 0x00 0x80 0x00 0x00)) = some (0xFFFF8000, 0x0000000A) ∧
    resultStatus (exec (.vrdInt16 .big) (win 0x00 0x80 0x00 0x00)) = some (0x00000080, 0x0000000A) := by decide
theorem test_vrdUint32 :
    resultStatus (exec (.vrdUint32 .little) (win 0x40 0xE2 0x01 0x00)) = some (0x0001E240, 0x0000000E) ∧
    resultStatus (exec (.vrdUint32 .big) (win 0x40 0xE2 0x01 0x00)) = some (0x40E20100, 0x0000000E) := by decide
theorem test_vrdFloat32 :
    resultStatus (exec (.vrdFloat32 .little) (win 0x01 0x00 0xC0 0x7F)) = some (0x7FC00001, 0x00000012) ∧
    resultStatus (exec (.vrdFloat32 .big) (win 0x80 0x00 0x00 0x00)) = some (0x80000000, 0x00000012) := by decide
theorem test_vrdEnum8 :
    resultStatus (exec (.vrdEnum8 .little) (win 0x03 0x00 0x00 0x00)) = some (0x00000003, 0x00000016) := by decide
theorem test_vrdBitfield8 :
    resultStatus (exec (.vrdBitfield8 .big) (win 0xA5 0x00 0x00 0x00)) = some (0x000000A5, 0x0000001A) := by decide
theorem test_vwrUint8 :
    window (exec (.vwrUint8 .big) (data 0x00000164)) = some [0x64, 0xEE, 0xEE, 0xEE] := by decide
theorem test_vwrUint16 :
    window (exec (.vwrUint16 .big) (data 0x00004B37)) = some [0x4B, 0x37, 0xEE, 0xEE] ∧
    window (exec (.vwrUint16 .little) (data 0x0001FFFF)) = some [0xFF, 0xFF, 0xEE, 0xEE] := by decide
theorem test_vwrInt16 :
    window (exec (.vwrInt16 .big) (data 0xFFFF8000)) = some [0x80, 0x00, 0xEE, 0xEE] ∧
    window (exec (.vwrInt16 .little) (data 0xFFFFFF9C)) = some [0x9C, 0xFF, 0xEE, 0xEE] := by decide
theorem test_vwrUint32 :
    window (exec (.vwrUint32 .little) (data 0x0001E240)) = some [0x40, 0xE2, 0x01, 0x00] ∧
    window (exec (.vwrUint32 .big) (data 0x0001E240)) = some [0x00, 0x01, 0xE2, 0x40] := by decide
theorem test_vwrFloat32 :
    window (exec (.vwrFloat32 .big) (data 0x3F800000)) = some [0x3F, 0x80, 0x00, 0x00] ∧
    window (exec (.vwrFloat32 .little) (data 0x7FC00001)) = some [0x01, 0x00, 0xC0, 0x7F] := by decide
theorem test_vwrEnum8 :
    window (exec (.vwrEnum8 .little) (data 0x00000002)) = some [0x02, 0xEE, 0xEE, 0xEE] := by decide
theorem test_vwrBitfield8 :
    window (exec (.vwrBitfield8 .big) (data 0x000000A5)) = some [0xA5, 0xEE, 0xEE, 0xEE] := by decide
theorem test_crcInit : accumulator (exec .crcInit (acc 0x4B37)) = some 0xFFFF := by decide
theorem test_crcByte :
    accumulator (exec (.crcByte 0x01) (acc 0xFFFF)) = some 0x807E ∧
    accumulator (exec (.crcByte 0x01) (acc 0x0000)) = some 0xC0C1 ∧
    accumulator (exec (.crcByte 0x00) (acc 0xA001)) = some 0xC061 := by decide
/-- C-TRACE9: the accumulator after each byte of "123456789". -/
theorem test_crc_trace9 :
    crcByteValue 0xFFFF 0x31 = 0x947E ∧
    crcByteValue 0x947E 0x32 = 0xF595 ∧
    crcByteValue 0xF595 0x33 = 0x7A75 ∧
    crcByteValue 0x7A75 0x34 = 0x30BA ∧
    crcByteValue 0x30BA 0x35 = 0xA471 ∧
    crcByteValue 0xA471 0x36 = 0x32E4 ∧
    crcByteValue 0x32E4 0x37 = 0x9D73 ∧
    crcByteValue 0x9D73 0x38 = 0x37DD ∧
    crcByteValue 0x37DD 0x39 = 0x4B37 :=
  ⟨by decide, by decide, by decide, by decide, by decide, by decide, by decide, by decide, by decide⟩

/-! ## The port (2.4, 2.5, P5): one step each -/

/-- One event at the port of a state. -/
def one (e : Event) (s : State) : State := { s with pending := [e] }

theorem test_step_illegal :
    step (one (.write 0x00 4 0x30000007) (acc 0x1234)) = .next { acc 0x1234 with ill := true } := rfl
theorem test_step_read_crc :
    step (one (.read 0x0C 4) State.reset) = .next { State.reset with replies := [0x0000FFFF] } := rfl
theorem test_step_write_win1 :
    step (one (.write 0x18 4 0x000001FF) State.reset) = .next { State.reset with win1 := 0xFF } := rfl
theorem test_step_write_status :
    step (one (.write 0x10 4 0xFFFFFFFF) State.reset) = .next State.reset := rfl
theorem test_step_narrow_refused :
    step (one (.read 0x04 2) State.reset) = .refused .widthNot32 := rfl
theorem test_step_misaligned_refused :
    step (one (.write 0x06 4 0) State.reset) = .refused .misaligned := rfl
theorem test_step_fetch_word :
    step (State.reset.withFetchWord 32 0x200000FF) = .next { State.reset with crc := 0x00FF } := rfl

/-! ## Assembler and client text (R65 to R67, programs P1 to P5) -/

theorem test_asm_value : assembleText "VRD.uint32 LE" = some 0x30000003 ∧
    assembleText "VWR.uint16 BE ; serialize" = some 0x40000101 := by decide
theorem test_asm_byte : assembleText "CRC.BYTE 0x39" = some 0x20000039 ∧ assembleText "CRC.BYTE 255" = some 0x200000FF ∧
    assembleText "CRC.BYTE 256" = none := by decide
theorem test_asm_order : assembleText "VRD.uint8" = some 0x30000000 ∧ assembleText "VRD.uint16" = none ∧
    assembleText "vrd.uint8" = none := by decide
theorem test_line_write : parseLine "W WIN1, 0xE2 ; 2" = some (.write .win1 0xE2) ∧
    parseLine "W CMD, VRD.uint32 LE" = some (.writeCommand (.vrd .uint32 (some .little))) := by decide
theorem test_line_read : parseLine "R RESULT" = some (.read .result) ∧ parseLine "R CRC -> 0x00004B37" = some (.read .crc) := by
  decide
theorem test_line_bytes : parseLine "CRC.OVER 0xC0, 0x00, 0x02, 0x70" = some (.crcOver [0xC0, 0x00, 0x02, 0x70]) := by decide

/-- The comment-only line of 95_test_vectors.md, program P2, and an empty line: no access. -/
theorem test_line_comment :
    lineEvents 0 "                          ; W CMD, 0x20000031 ... W CMD, 0x20000039  (9 writes)" = some [] ∧
    lineEvents 0 "" = some [] ∧ lineEvents 0 "; R CRC" = some [] ∧ assembleText "; CRC.INIT" = none := by decide
/-- Lines of program P4, with their comments; one bad line spoils a program. -/
theorem test_program :
    parseProgram ["CRC.OVER 0xC0, 0x00    ; frame offsets 2..L-1 = 2..5",
      "                          ; W CMD, 0x10000000, 0x200000C0", "R CRC                     ; -> 0x0000A03C   crcCalc",
      "C VRD.uint16 BE           ; W CMD, 0x30000101"] =
      some [.crcOver [0xC0, 0x00], .comment, .read .crc, .command (.vrd .uint16 (some .big))] ∧
    parseProgram ["R CRC", "R PC"] = none := by decide

/-! ## The host's side -/

theorem test_port_offset : portOffset? ⟨3⟩ 0xC4 = some 0x04 ∧ portOffset? ⟨3⟩ 0x100 = none ∧ portOffset? ⟨3⟩ 0xBF = none := by
  decide
/-- R120: two accesses at T_ACCESS = 5; a change of rst is no access. -/
theorem test_bus_time : busTime 5 [.setRst true, .setRst false, .read 0x0C 4, .write 0x04 4 0] = 10 := by decide
theorem test_float32_minus_zero : float32Value 0x80000000 = .finite true 0 := by
  simp [float32Value, show float32Exponent 0x80000000#32 = 0 from rfl, show float32Fraction 0x80000000#32 = 0 from rfl,
    show float32Sign 0x80000000#32 = true from rfl]

/-! ## Witnesses: for each statement with hypotheses, values that meet them, clause by clause -/

theorem witness_DecodeOfEncode : (Instr.crcByte 0xFF).wellFormed = true := by decide

theorem witness_EncodeOfDecode : decodeWord 0x40000106 = .ok (.vwrBitfield8 .big) := by decide

theorem witness_WordSpellsCommandByMaskAndMatch :
    (⟨"CRC.BYTE", 0x20000000, 0xFFFFFF00⟩ : OpcodeRow) ∈ opcodeTable ∧
    (⟨"CRC.BYTE", 0x20000000, 0xFFFFFF00⟩ : OpcodeRow).spelledBy 0x200000FF = true := by decide

theorem witness_ReservedEncodingsAreIllegal :
    (0x00000000 : Word).extractLsb' 28 4 = 0x0 ∧ 0x5 ≤ (0x50000000 : Word).extractLsb' 28 4 ∧
    ((0x10000001 : Word).extractLsb' 28 4 = 0x1 ∧ (0x10000001 : Word).extractLsb' 0 28 ≠ 0) ∧
    ((0x20000100 : Word).extractLsb' 28 4 = 0x2 ∧ (0x20000100 : Word).extractLsb' 8 20 ≠ 0) ∧
    ((0x30000200 : Word).extractLsb' 28 4 = 0x3 ∧ (0x30000200 : Word).extractLsb' 9 19 ≠ 0) ∧
    ((0x40000008 : Word).extractLsb' 28 4 = 0x4 ∧ (0x40000008 : Word).extractLsb' 3 5 ≠ 0) ∧
    ((0x40000007 : Word).extractLsb' 28 4 = 0x4 ∧ (0x40000007 : Word).extractLsb' 0 3 = 7) := by decide

theorem witness_IllegalExactlyWhenNoRowMatches :
    (∀ r ∈ opcodeTable, r.spelledBy 0x30000007 = false) ∧ decodeWord 0x20000000 = .ok (.crcByte 0x00) := by decide

theorem witness_AssemblerEncodesMnemonics : 255 ≤ 255 ∧ 255 < 256 := by decide

theorem witness_PseudoInstructionsExpand : assemble (.crcByte 255) = some (.crcByte 0xFF) := by decide

theorem witness_ClientLinesAreTheirAccesses :
    ("WIN3", (0x20 : BitVec 6)) ∈
      [("CMD", (0x00 : BitVec 6)), ("DATA", 0x04), ("RESULT", 0x08), ("CRC", 0x0C), ("STATUS", 0x10),
       ("WIN0", 0x14), ("WIN1", 0x18), ("WIN2", 0x1C), ("WIN3", 0x20)] := by decide

theorem witness_VrdCommonShape :
    sameWindow Kind.uint16.width (win 1 2 3 4) (win 1 2 0xFF 0xFF) ∧
    exec (Instr.vrd .uint16 .little) (win 1 2 3 4) =
      .next { win 1 2 3 4 with result := 0x0201, rv := true, kind := 1 } ∧
    (0x0C : BitVec 6) ≠ slotOffset .result ∧ (0x0C : BitVec 6) ≠ slotOffset .status := by
  refine ⟨?_, rfl, by decide, by decide⟩
  unfold sameWindow
  decide

theorem witness_VrdUint8Rule : (win 0x64 0 0 0).win0 = 0x64 ∧ (win 0xFF 0 0 0).win0 = 0xFF := by decide

theorem witness_VrdUint16Rule :
    ((win 0x4B 0x37 0 0).win0 = 0x4B ∧ (win 0x4B 0x37 0 0).win1 = 0x37) ∧
    ((win 0xFF 0xFF 0 0).win0 = 0xFF ∧ (win 0xFF 0xFF 0 0).win1 = 0xFF) := by decide

theorem witness_VrdInt16Rule :
    winVal2 .little (win 0xFF 0x7F 0 0) = 0x7FFF ∧ winVal2 .little (win 0x00 0x80 0 0) = 0x8000 ∧
    winVal2 .big (win 0xFF 0xFF 0 0) = 0xFFFF ∧
    ((win 0x00 0x80 0 0).win0 = 0x00 ∧ (win 0x00 0x80 0 0).win1 = 0x80) := by decide

theorem witness_VrdUint32Rule :
    (win 0x40 0xE2 0x01 0x00).win0 = 0x40 ∧ (win 0x40 0xE2 0x01 0x00).win1 = 0xE2 ∧
    (win 0x40 0xE2 0x01 0x00).win2 = 0x01 ∧ (win 0x40 0xE2 0x01 0x00).win3 = 0x00 := by decide

theorem witness_VrdFloat32Rule :
    (win 0x00 0x00 0x80 0x3F).win0 = 0x00 ∧ (win 0x00 0x00 0x80 0x3F).win1 = 0x00 ∧
    (win 0x00 0x00 0x80 0x3F).win2 = 0x80 ∧ (win 0x00 0x00 0x80 0x3F).win3 = 0x3F := by decide

theorem witness_VrdEnum8Rule : (win 0x03 0 0 0).win0 = 0x03 := by decide

theorem witness_VrdBitfield8Rule : 7 < 8 ∧ (win 0xA5 0 0 0).win0 = 0xA5 := by decide

theorem witness_WindowNumberByByteOrder :
    (win 0x40 0xE2 0x01 0x00).win0 = 0x40 ∧ (win 0x40 0xE2 0x01 0x00).win1 = 0xE2 ∧
    (win 0x40 0xE2 0x01 0x00).win2 = 0x01 ∧ (win 0x40 0xE2 0x01 0x00).win3 = 0x00 := by decide

theorem witness_OrderBitSelectsByteOrder : Kind.bitfield8.width = 1 := by decide

theorem witness_Float32ValueByFields :
    ((0xFF : BitVec 8) = 0xFF ∧ (1 : BitVec 23) ≠ 0) ∧ ((0xFF : BitVec 8) = 0xFF ∧ (0 : BitVec 23) = 0) ∧
    (1 ≤ (0xFE : BitVec 8).toNat ∧ (0xFE : BitVec 8).toNat ≤ 0xFE) ∧ (0 : BitVec 8) = 0 := by decide

theorem witness_VwrCommonShape :
    Kind.uint16.width ≤ (2 : Fin 4).val ∧
    (data 0x0001FFFF).data.toNat % 2 ^ (8 * Kind.uint16.width) =
      (data 0x0002FFFF).data.toNat % 2 ^ (8 * Kind.uint16.width) ∧
    ∀ i : Fin 4, i.val < Kind.uint16.width → (0x1C : BitVec 6).toNat ≠ 0x14 + 4 * i.val := by decide

theorem witness_VwrUint8Rule : (data 0x00000164).data = 0x00000164 ∧ (data 0x00000064).data = 0x00000064 := by decide

theorem witness_VwrUint16Rule : (data 0x0001FFFF).data = 0x0001FFFF ∧ (data 0x00004B37).data = 0x00004B37 := by decide

theorem witness_VwrInt16Rule :
    exec (.vwrInt16 .big) (data 0x00008000) = .next (win 0x80 0x00 0xEE 0xEE |> ({ · with data := 0x00008000 })) ∧
    (data 0xFFFFFFFF).data = 0xFFFFFFFF ∧ (data 0x00008000).data = 0x00008000 ∧
    (data 0xFFFFFF9C).data = 0xFFFFFF9C := ⟨rfl, rfl, rfl, rfl⟩

theorem witness_VwrUint32Rule : (data 123456).data = 123456 := by decide

theorem witness_VwrFloat32Rule : (data 0x3F800000).data = 0x3F800000 := by decide

theorem witness_VwrEnum8Rule : (data 0x00000002).data = 0x00000002 := by decide

theorem witness_VwrBitfield8Rule : 7 < 8 ∧ (data 0x000000A5).data = 0x000000A5 := by decide

theorem witness_WriteThenReadRoundTrip :
    (∃ t, exec (Instr.vwr .int16 .big) (data 0xFFFF8000) = .next t ∧ sameWindow 4 t t ∧
      -2 ^ 15 ≤ (data 0xFFFF8000).data.toInt ∧ (data 0xFFFF8000).data.toInt < 2 ^ 15) ∧
    (∃ t, exec (Instr.vwr .uint16 .little) (data 0xFFFF) = .next t ∧ sameWindow 4 t t ∧
      Kind.uint16 ≠ .int16 ∧ (data 0xFFFF).data.toNat < 2 ^ (8 * Kind.uint16.width)) :=
  ⟨⟨_, rfl, fun _ _ => rfl, by decide, by decide⟩, ⟨_, rfl, fun _ _ => rfl, by decide, by decide⟩⟩

theorem witness_MixedWidthWindowViews :
    (∃ t, exec (Instr.vwr .int16 .little) (data 0xFFFFFF9C) = .next t) ∧ Kind.int16.width ≤ (2 : Fin 4).val :=
  ⟨⟨_, rfl⟩, by decide⟩

theorem witness_CrcInitRule :
    (acc 0x4B37).crc = 0x4B37 ∧ exec .crcInit (acc 0x4B37) = .next (acc 0xFFFF) := ⟨rfl, rfl⟩

theorem witness_CrcByteRule : (acc 0x0000).crc = 0x0000 ∧ State.reset.crc = 0xFFFF := by decide

/-- A session with a value command, a DATA write and an illegal word between its commands. -/
def mixedSession : List Event :=
  [commandEvent 0x10000000, .write 0x04 4 0x4B37, commandEvent 0x20000001, commandEvent 0x40000101,
    commandEvent 0x00000000]

theorem witness_ClosingReadReturnsChecksum : State.reset.rst = false := by decide

theorem witness_SessionLeavesChecksum :
    State.reset.rst = false ∧ (∀ e ∈ mixedSession, e.noReset = true) ∧
    mixedSession.filterMap Event.crcCommand? = .crcInit :: [(0x01 : Byte)].map Instr.crcByte ∧
    ∃ t, Serves State.reset mixedSession t :=
  ⟨rfl, by decide, by decide, _, rfl⟩

theorem witness_ChecksumContinues : State.reset.rst = false ∧ (acc 0x807E).crc = crc16 [0x01] := by decide

theorem witness_CrcAndValueUnitsAreIndependent :
    commandGroup (.vwrUint8 .little) ≠ .crc ∧ commandGroup (.crcByte 0xFF) = .crc ∧
    (acc 0x1234).crc = { win 1 2 3 4 with crc := 0x1234 }.crc ∧
    exec .crcInit (acc 0x1234) = .next (acc 0xFFFF) ∧ (0x10 : BitVec 6) ≠ slotOffset .crc :=
  ⟨by decide, by decide, rfl, rfl, by decide⟩

theorem witness_SingleBitFlipChangesChecksum : 7 < 8 := by decide

theorem witness_CrcSerializesBigEndian : (acc 0x4B37).rst = false := by decide

theorem witness_ResetSetsEveryRegister : AtReset State.reset := by
  unfold AtReset
  decide

/-- A state with every register written. -/
def used : State :=
  { win 1 2 3 4 with data := 5, result := 6, crc := 7, ill := true, rv := true, kind := 3 }

theorem witness_ResetInputRules :
    (one (.setRst true) used).pending = .setRst true :: [] ∧
    (one (.read 0x00 4) { used with rst := true }).rst = true ∧
    ({ used with rst := true }.rst = true ∧ { used with rst := true }.pending = []) ∧
    (one (.setRst false) { used with rst := true }).pending = .setRst false :: [] ∧
    ((one (.read 0x3C 4) used).rst = false ∧ (Event.read 0x3C 4).allowed false = true) ∧
    (∃ t, step (one (.setRst true) used) = .next t ∧ used.ill = true ∧ t.ill = false ∧
      used.rv = true ∧ t.rv = false) :=
  ⟨rfl, rfl, ⟨rfl, rfl⟩, rfl, ⟨rfl, rfl⟩, _, rfl, rfl, rfl, rfl, rfl⟩

theorem witness_IllegalCommandAloneSetsIll :
    (one (.write 0x00 4 0x00000000) State.reset).pending = .write 0x00 4 0x00000000 :: [] ∧
    decodeWord 0x00000000 = .error .reservedOp ∧
    (∃ t, step (one (.write 0x00 4 0x00000000) State.reset) = .next t ∧ State.reset.ill = false ∧ t.ill = true) ∧
    (∃ t, step (one (.setRst true) used) = .next t ∧ used.ill = true ∧ t.ill = false) :=
  ⟨rfl, rfl, ⟨_, rfl, rfl, rfl⟩, ⟨_, rfl, rfl, rfl⟩⟩

theorem witness_IllIsStickyAndMissesNothing :
    State.reset.rst = false ∧ (∀ e ∈ mixedSession, e.noReset = true) ∧ ∃ t, Serves State.reset mixedSession t :=
  ⟨rfl, by decide, _, rfl⟩

theorem witness_ReadSetsValidAndKind :
    (commandGroup (.vwrUint8 .big) ≠ .read ∧ ∃ t, exec (.vwrUint8 .big) used = .next t) ∧
    (decodeWord 0x30000007 = .error .reservedKind ∧ ∃ t, execWord 0x30000007 used = .next t) ∧
    (used.rv = true ∧ used.kind = 3 ∧ { used with kind := 6 }.kind = 6 ∧ { used with kind := 1 }.kind = 1 ∧
      { used with kind := 2 }.kind = 2 ∧ { used with kind := 4 }.kind = 4) ∧
    State.reset.rv = false :=
  ⟨⟨by decide, _, rfl⟩, ⟨rfl, _, rfl⟩, by decide, rfl⟩

theorem not_underReset_one {e : Event} {s : State} (hs : s.rst = false) (he : e ≠ .setRst true) :
    ¬ underReset (one e s) := by
  rintro (h | ⟨es, h⟩)
  · simp [one, hs] at h
  · simp only [one, List.cons.injEq] at h
    exact he h.1

theorem witness_EachRegisterHasOnlyItsWriters :
    (∃ t, step (one (.write 0x04 4 9) used) = .next t ∧ ¬ underReset (one (.write 0x04 4 9) used) ∧
      t.data ≠ used.data) ∧
    (∃ t, step (one (commandEvent 0x30000101) used) = .next t ∧ ¬ underReset (one (commandEvent 0x30000101) used) ∧
      t.result ≠ used.result ∧ t.kind ≠ used.kind) ∧
    (∃ t, step (one (commandEvent 0x10000000) used) = .next t ∧ ¬ underReset (one (commandEvent 0x10000000) used) ∧
      t.crc ≠ used.crc) ∧
    (∃ t, step (one (commandEvent 0x40000003) used) = .next t ∧ ¬ underReset (one (commandEvent 0x40000003) used) ∧
      winByte t 3 ≠ winByte used 3) ∧
    (∃ t, step (one (.write 0x14 4 9) used) = .next t ∧ ¬ underReset (one (.write 0x14 4 9) used) ∧
      winByte t 0 ≠ winByte used 0) ∧
    (∃ t, step used = .next t ∧ ¬ underReset used ∧ used.pending = []) :=
  ⟨⟨_, rfl, not_underReset_one rfl (by decide), by decide⟩,
   ⟨_, rfl, not_underReset_one rfl (by decide), by decide, by decide⟩,
   ⟨_, rfl, not_underReset_one rfl (by decide), by decide⟩,
   ⟨_, rfl, not_underReset_one rfl (by decide), by decide⟩,
   ⟨_, rfl, not_underReset_one rfl (by decide), by decide⟩,
   ⟨_, rfl, (by rintro (h | ⟨es, h⟩) <;> cases h), rfl⟩⟩

theorem witness_ResultOutlastsOtherCommands :
    used.rst = false ∧ (∀ e ∈ mixedSession, e.noReset = true ∧ e.runsGroup .read = false) ∧
    ∃ t, Serves used mixedSession t :=
  ⟨rfl, by decide, _, rfl⟩

theorem witness_RegisterMap :
    (0x24 : BitVec 6) ≤ 0x24 ∧ (0x24 : BitVec 6) ≤ 0x3C ∧ State.reset.rst = false ∧
    (0x3C : BitVec 6).extractLsb' 0 2 = 0 ∧
    (one (.read 0x3C 4) State.reset).pending = .read 0x3C 4 :: [] ∧
    (one (.write 0x3C 4 1) State.reset).pending = .write 0x3C 4 1 :: [] := by decide

theorem witness_ReadsHaveNoSideEffect : used.rst = false ∧ (0x20 : BitVec 6).extractLsb' 0 2 = 0 := by decide

theorem witness_WriteIdempotence :
    ((0x04 : BitVec 6).extractLsb' 0 2 = 0 ∧ (0x04 : BitVec 6) ≠ slotOffset .cmd) ∧
    (0x08 : BitVec 6) = slotOffset .result ∧ (0x24 : BitVec 6) ≤ 0x24 := by decide

theorem witness_StepRunsTheDecodedCommand :
    (one (.write 0x00 4 0x20000031) used).pending = .write 0x00 4 0x20000031 :: [] ∧ used.rst = false ∧
    decodeWord 0x20000031 = .ok (.crcByte 0x31) ∧
    decodeTableWord 32 (0x20000031 : Word).toNat = some (.crcByte 0x31) := by decide

theorem witness_ResultVisibleAtNextAccess :
    used.rst = false ∧ (0x20 : BitVec 6).toNat = 0x14 + 4 * (3 : Fin 4).val := by decide

theorem witness_StepKeepsInvariant :
    BlockInv (one (commandEvent 0x30000102) State.reset) ∧
    ∃ t, step (one (commandEvent 0x30000102) State.reset) = .next t :=
  ⟨⟨by show (0 : Nat) < 2 ^ 8; decide, fun _ => ⟨rfl, rfl⟩, fun h => by cases h⟩, _, rfl⟩

theorem witness_HostAddressesReachTheirBlock :
    [(⟨⟨3⟩, used⟩ : PlatformBlock)][0]? = some ⟨⟨3⟩, used⟩ ∧
    ¬ ((⟨3⟩ : Base).address ≤ 0x100 ∧ 0x100 < (⟨3⟩ : Base).address + 64) ∧
    0xFF = (⟨3⟩ : Base).address + (0x3F : BitVec 6).toNat := by decide

end Sys2Proof.Tests
end

section
/-! PROOFS of the family 00_scope: runs in arrival order, the session of R91 and its closing read, the host's side of
the port, and the count of a session's accesses. -/

namespace Sys2Proof.Machine

/-! ## Commands at the port -/

/-- R53 to R55, R58: the decoder gives back the command whose word it reads. -/
@[simp] theorem decodeWord_encode (i : Instr) : decodeWord (encode i) = .ok i := by
  cases i with
  | crcInit => rfl
  | crcByte b =>
    revert b
    decide
  | _ e => cases e <;> rfl

theorem slotOffset_aligned (sl : Slot) : (slotOffset sl).extractLsb' 0 2 = 0 := by
  cases sl <;> rfl

/-- An aligned 32-bit access of a named slot is inside the interface contract while `rst` is low. -/
theorem accessRefusal_slotOffset {rst : Bool} (h : rst = false) (sl : Slot) :
    accessRefusal? rst (slotOffset sl) 4 = none :=
  (accessRefusal_eq_none_iff _ _ _).2 ⟨h, rfl, slotOffset_aligned sl⟩

/-- R17, R58: out of reset, serving a command word executes it. -/
theorem serve_commandEvent {s : State} (h : s.rst = false) (w : Word) :
    serve (commandEvent w) s = execWord w s := by
  simp only [serve, commandEvent, accessRefusal_slotOffset h, writeAt, slotAt_slotOffset]

/-- R17, R58: out of reset, serving the word of a command runs that command. -/
theorem serve_encode {s : State} (h : s.rst = false) (i : Instr) :
    serve (commandEvent (encode i)) s = exec i s := by
  rw [serve_commandEvent h, execWord, decodeWord_encode]

/-- R32: out of reset, serving a read of a slot returns the slot's value. -/
theorem serve_readEvent {s : State} (h : s.rst = false) (sl : Slot) :
    serve (readEvent sl) s = .next (reply (readSlot (some sl) s) s) := by
  simp only [serve, readEvent, accessRefusal_slotOffset h, readAt, slotAt_slotOffset]

/-! ## Runs -/

/-- A run over a list of events starts at that list, whatever the state held at its port. -/
theorem serves_withPending (s t : State) (ps es : List Event) :
    Serves { s with pending := ps } es t ↔ Serves s es t := Iff.rfl

/-- R45: a run over two lists of events is a run over the first and then one over the second. -/
theorem serves_append (s t : State) (es es' : List Event) :
    Serves s (es ++ es') t ↔ ∃ u, Serves s es u ∧ Serves u es' t := by
  induction es generalizing s with
  | nil => simp [serves_nil, serves_withPending]
  | cons e es ih =>
    simp only [List.cons_append, serves_cons, ih]
    constructor
    · rintro ⟨v, hv, u, hu, ht⟩
      exact ⟨u, ⟨v, hv, hu⟩, ht⟩
    · rintro ⟨u, ⟨v, hv, hu⟩, ht⟩
      exact ⟨v, hv, u, hu, ht⟩

/-- A run over one event serves that event, and leaves nothing at the port. -/
theorem serves_singleton {s t : State} {e : Event} (h : serve e s = .next t) :
    Serves s [e] { t with pending := [] } :=
  (serves_cons _ _ _ _).2 ⟨t, h, (serves_nil _ _).2 rfl⟩

/-- Settles O52, by induction on the first list of events. -/
theorem eventsTakeEffectInOrder : Obligations.EventsTakeEffectInOrder :=
  serves_append

/-! ## CRC sessions -/

/-- R90, R92: a run of CRC.BYTE commands folds their bytes into the accumulator, and changes nothing else. -/
theorem serves_crcBytesEvents {s : State} (h : s.rst = false) (m : List Byte) :
    Serves s (crcBytesEvents m) { s with crc := m.foldl crcByteValue s.crc, pending := [] } := by
  induction m generalizing s with
  | nil => exact (serves_nil _ _).2 rfl
  | cons b m ih =>
    exact (serves_cons _ _ _ _).2 ⟨{ s with crc := crcByteValue s.crc b }, serve_encode h (.crcByte b), ih h⟩

/-- R91: a session leaves the checksum of its bytes in the accumulator, and changes nothing else. -/
theorem serves_crcOverEvents {s : State} (h : s.rst = false) (m : List Byte) :
    Serves s (crcOverEvents m) { s with crc := crc16 m, pending := [] } := by
  have hbytes := serves_crcBytesEvents (s := { s with crc := crcInitial }) h m
  exact (serves_cons _ _ _ _).2 ⟨_, serve_encode h .crcInit, hbytes⟩

/-- Settles O60: the session of R91, then the read of the accumulator it left. -/
theorem closingReadReturnsChecksum : Obligations.ClosingReadReturnsChecksum := by
  intro s m h
  have hread := serve_readEvent (s := { s with crc := crc16 m, pending := [] }) h .crc
  exact (serves_append _ _ _ _).2 ⟨_, serves_crcOverEvents h m, serves_singleton hread⟩

/-! ## Host addresses -/

/-- R9: BASE is the start of a 64-byte line. -/
theorem Base.address_mod (base : Base) : base.address % 64 = 0 :=
  Nat.mul_mod_right 64 base.line

/-- R31: the 64 host addresses at BASE select the offsets of the window, each its own. -/
theorem portOffset_eq_some_iff (base : Base) (addr : Nat) (off : BitVec 6) :
    portOffset? base addr = some off ↔ addr = base.address + off.toNat := by
  have hoff : off.toNat < 64 := off.isLt
  unfold portOffset?
  split
  next hw =>
    rw [Option.some_inj, ← BitVec.toNat_inj, BitVec.toNat_ofNat]
    omega
  next hw =>
    simp only [reduceCtorEq, false_iff]
    omega

/-- R31, S4: a host address outside the 64 bytes at BASE selects nothing. -/
theorem portOffset_eq_none {base : Base} {addr : Nat} (h : ¬ (base.address ≤ addr ∧ addr < base.address + 64)) :
    portOffset? base addr = none :=
  if_neg h

/-! ## Platforms -/

/-- R108: an access that is no event at a block leaves that block as it is. -/
theorem deliver_getElem?_of_none {p : List PlatformBlock} {a : BusAccess} {n : Nat} {b : PlatformBlock}
    (hb : p[n]? = some b) (ha : busEvent? b.base a = none) : (deliver a p)[n]? = some b := by
  simp [deliver, hb, ha]

/-- R108: an access that is an event at a block arrives at its port after all that is there. -/
theorem deliver_getElem?_of_some {p : List PlatformBlock} {a : BusAccess} {n : Nat} {b : PlatformBlock} {e : Event}
    (hb : p[n]? = some b) (ha : busEvent? b.base a = some e) :
    (deliver a p)[n]? = some { b with state := enqueue e b.state } := by
  simp [deliver, hb, ha]

/-- Settles O57: what `portOffset?` selects decides which event, if any, an access is at each block. -/
theorem hostAddressesReachTheirBlock : Obligations.HostAddressesReachTheirBlock := by
  refine ⟨Base.address_mod, portOffset_eq_some_iff, ?_, ?_⟩
  · intro p addr size n b hb hout
    have ho := portOffset_eq_none hout
    exact ⟨deliver_getElem?_of_none hb (by simp [busEvent?, ho]),
      fun v => deliver_getElem?_of_none hb (by simp [busEvent?, ho])⟩
  · intro p addr size n b off hb haddr
    have ho := (portOffset_eq_some_iff _ _ _).2 haddr
    exact ⟨deliver_getElem?_of_some hb (by simp [busEvent?, ho]),
      fun v => deliver_getElem?_of_some hb (by simp [busEvent?, ho])⟩

/-! ## The accesses of a session -/

theorem accessCount_append (es es' : List Event) :
    accessCount (es ++ es') = accessCount es + accessCount es' :=
  List.countP_append

@[simp] theorem accessCount_read (off : BitVec 6) (size : Nat) (es : List Event) :
    accessCount (.read off size :: es) = accessCount es + 1 :=
  List.countP_cons_of_pos rfl

@[simp] theorem accessCount_write (off : BitVec 6) (size : Nat) (v : Word) (es : List Event) :
    accessCount (.write off size v :: es) = accessCount es + 1 :=
  List.countP_cons_of_pos rfl

/-- One access a byte (R67). -/
theorem accessCount_crcBytesEvents (m : List Byte) : accessCount (crcBytesEvents m) = m.length := by
  induction m with
  | nil => rfl
  | cons b m ih => exact (accessCount_write _ _ _ _).trans (congrArg (· + 1) ih)

/-- R121: one access for CRC.INIT and one a byte. -/
theorem accessCount_crcOverEvents (m : List Byte) : accessCount (crcOverEvents m) = m.length + 1 :=
  (accessCount_write _ _ _ _).trans (congrArg (· + 1) (accessCount_crcBytesEvents m))

/-- R13, R121: the closing read of CRC is one access more. -/
theorem accessCount_sessionWithReadEvents (m : List Byte) :
    accessCount (sessionWithReadEvents m) = m.length + 2 := by
  rw [sessionWithReadEvents, accessCount_append, accessCount_crcOverEvents]
  rfl

/-- Settles O58, from the counts of the accesses of a session and of its closing read. -/
theorem sessionWorkIsLinear : Obligations.SessionWorkIsLinear := by
  intro m
  refine ⟨accessCount_crcOverEvents m, accessCount_sessionWithReadEvents m, fun tAccess => ?_⟩
  rw [busTime, accessCount_crcOverEvents]

end Sys2Proof.Machine
end

section
/-! PROOFS of the family 10_state: what a step under reset and a step out of reset can do, the writers of each register,
and the invariant. -/

namespace Sys2Proof.Machine

/-! ## Command words at the port -/

/-- R17, R58: out of reset, a step at a command word runs it on the state without the event. -/
theorem step_commandEvent {s : State} {es : List Event} {w : Word} (hrst : s.rst = false)
    (hp : s.pending = commandEvent w :: es) : step s = execWord w { s with pending := es } := by
  have htake : takeEvent s = { s with pending := es } := by simp [takeEvent, hp]
  rw [step, serveNext, hp, htake]
  exact serve_commandEvent (s := { s with pending := es }) hrst w

theorem execWord_of_ok {w : Word} {i : Instr} (h : decodeWord w = .ok i) (s : State) :
    execWord w s = exec i s := by
  rw [execWord, h]

theorem execWord_of_error {w : Word} {r : Illegal} (h : decodeWord w = .error r) (s : State) :
    execWord w s = .next (raiseIllegalCommand s) := by
  rw [execWord, h]

/-- A row of the opcode table that is a whole 32-bit word is decoded as that word. -/
theorem decodeTableWord_toNat (w : Word) : decodeTableWord 32 w.toNat = (decodeWord w).toOption := by
  simp [decodeTableWord, Nat.mod_eq_of_lt w.isLt]

theorem decodeWord_of_toOption {w : Word} {i : Instr} (h : (decodeWord w).toOption = some i) :
    decodeWord w = .ok i := by
  cases hd : decodeWord w with
  | ok j =>
    rw [hd] at h
    cases h
    rfl
  | error r =>
    rw [hd] at h
    cases h

/-- Settles O53: a step at a legal word, written by the client or placed by `withFetchWord`, is `exec`. -/
theorem stepRunsTheDecodedCommand : Obligations.StepRunsTheDecodedCommand := by
  constructor
  · intro s es w i hrst hp hd
    exact (step_commandEvent hrst hp).trans (execWord_of_ok hd _)
  · intro s w i hd
    have hok := decodeWord_of_toOption ((decodeTableWord_toNat w).symm.trans hd)
    have hp : (s.withFetchWord 32 w.toNat).pending = commandEvent w :: s.pending := by
      simp [State.withFetchWord, placeCommand, Nat.mod_eq_of_lt w.isLt]
    exact (step_commandEvent rfl hp).trans (execWord_of_ok hok _)

/-! ## Steps under reset and steps out of reset -/

theorem atReset_resetRegisters (s : State) (level : Bool) : AtReset { resetRegisters s with rst := level } := rfl

/-- R111: a step taken while `rst` is asserted, or that asserts it, leaves every register at its reset value. -/
theorem step_underReset {s t : State} (h : step s = .next t) (hr : underReset s) : AtReset t := by
  rcases step_cases h with ⟨hp, rfl⟩ | ⟨e, es, hp, ⟨level, rfl, rfl⟩ | ⟨hrst, off, -, haccess⟩⟩
  · obtain hrst | ⟨es, hp'⟩ := hr
    · rw [idle_of_high hrst]
      exact atReset_resetRegisters s s.rst
    · rw [hp] at hp'
      cases hp'
  · have hlevel : (level || (takeEvent s).rst) = true := by
      obtain hrst | ⟨es', hp'⟩ := hr
      · simp [hrst]
      · rw [hp] at hp'
        cases hp'
        rfl
    rw [driveRst, if_pos hlevel]
    exact atReset_resetRegisters _ level
  · exfalso
    obtain hrst' | ⟨es', hp'⟩ := hr
    · simp [hrst] at hrst'
    · rw [hp] at hp'
      rcases haccess with ⟨rfl, -⟩ | ⟨v, rfl, -⟩ <;> cases hp'

theorem rst_low_of_not_underReset {s : State} (hr : ¬ underReset s) : s.rst = false :=
  Bool.eq_false_iff.2 fun hrst => hr (.inl hrst)

/-- What a step out of reset that takes the event `e` from the port can do. -/
inductive Served (s t : State) (e : Event) : Prop where
  /-- No register changes: a read, or a low `rst` set low. -/
  | noRegister (rs : List Word) (ht : t = { takeEvent s with replies := rs })
  | command (i : Instr) (hi : e.instr? = some i) (ht : exec i (takeEvent s) = .next t)
  | illegal (he : e.writesIllegal = true) (ht : t = raiseIllegalCommand (takeEvent s))
  | store (off : BitVec 6) (v : Word) (he : e = .write off 4 v) (ht : t = storeSlot (slotAt off) v (takeEvent s))

theorem commandEvent_instr {w : Word} {i : Instr} (hd : decodeWord w = .ok i) : (commandEvent w).instr? = some i :=
  congrArg Except.toOption hd

theorem commandEvent_writesIllegal {w : Word} {r : Illegal} (hd : decodeWord w = .error r) :
    (commandEvent w).writesIllegal = true :=
  congrArg (·.toOption.isNone) hd

/-- Everything a step out of reset can do: nothing without an event, else one of the cases of `Served`. -/
theorem step_cases_outOfReset {s t : State} (h : step s = .next t) (hr : ¬ underReset s) :
    (s.pending = [] ∧ t = s) ∨ ∃ e es, s.pending = e :: es ∧ Served s t e := by
  have hlow := rst_low_of_not_underReset hr
  rcases step_cases h with ⟨hp, rfl⟩ | ⟨e, es, hp, ⟨level, rfl, rfl⟩ | ⟨-, off, -, haccess⟩⟩
  · exact .inl ⟨hp, idle_of_low hlow⟩
  · refine .inr ⟨_, es, hp, ?_⟩
    cases level with
    | true => exact absurd (.inr ⟨es, hp⟩) hr
    | false => exact .noRegister s.replies (driveRst_low_of_low hlow)
  · refine .inr ⟨e, es, hp, ?_⟩
    rcases haccess with ⟨-, rfl⟩ | ⟨v, rfl, ⟨rfl, i, hd, ht⟩ | ⟨rfl, ⟨r, hd⟩, ht⟩ | ⟨-, ht⟩⟩
    · exact .noRegister _ rfl
    · exact .command i (commandEvent_instr hd) ht
    · exact .illegal (commandEvent_writesIllegal hd) ht
    · exact .store off v rfl ht

theorem Event.runsGroup_of_instr {e : Event} {i : Instr} {g : CommandGroup} (hi : e.instr? = some i)
    (hg : commandGroup i = g) : e.runsGroup g = true := by
  simp [Event.runsGroup, hi, hg]

/-! ## STATUS.ILL -/

/-- R22, R97: out of reset a step leaves ILL, unless it serves an illegal word. -/
theorem step_keeps_ill {s t : State} (h : step s = .next t) (hr : ¬ underReset s) :
    t.ill = s.ill ∨ (t.ill = true ∧ ∃ e es, s.pending = e :: es ∧ e.writesIllegal = true) := by
  rcases step_cases_outOfReset h hr with ⟨-, rfl⟩ | ⟨e, es, hp, hserved⟩
  · exact .inl rfl
  · cases hserved with
    | noRegister rs ht =>
      subst ht
      exact .inl rfl
    | command i hi ht =>
      obtain ⟨-, -, -, -, hill⟩ := exec_keeps ht
      exact .inl hill
    | illegal he ht =>
      subst ht
      exact .inr ⟨rfl, e, es, hp, he⟩
    | store off v he ht =>
      subst ht
      exact .inl (storeSlot_ill _ _ _)

theorem AtReset.ill {s : State} (h : AtReset s) : s.ill = false :=
  (congrArg State.ill h).symm

/-- Settles O42, by what a step under reset and one out of reset do to ILL. -/
theorem illegalCommandAloneSetsIll : Obligations.IllegalCommandAloneSetsIll := by
  refine ⟨?_, ?_, ?_⟩
  · intro s es w r hrst hp hd
    exact (step_commandEvent hrst hp).trans (execWord_of_error hd _)
  · intro s t h hs ht
    by_cases hr : underReset s
    · have hill := (step_underReset h hr).ill
      simp [ht] at hill
    · rcases step_keeps_ill h hr with hkeep | ⟨-, hill⟩
      · simp [hs, ht] at hkeep
      · exact hill
  · intro s t h hs ht
    by_contra hr
    rcases step_keeps_ill h hr with hkeep | ⟨hset, -⟩
    · simp [hs, ht] at hkeep
    · simp [ht] at hset

/-! ## RESULT, STATUS.RV and STATUS.KIND -/

/-- What VRD of a kind puts into RESULT (R69 to R75): the number in the window, extended to 32 bits. -/
def readValue (k : Kind) (e : Endian) (s : State) : Word :=
  match k with
  | .uint8 => zext32 (winVal1 e s)
  | .uint16 => zext32 (winVal2 e s)
  | .int16 => sext32 (winVal2 e s)
  | .uint32 => winVal4 e s
  | .float32 => winVal4 e s
  | .enum8 => zext32 (winVal1 e s)
  | .bitfield8 => zext32 (winVal1 e s)

theorem exec_vrd (k : Kind) (e : Endian) (s : State) :
    exec (Instr.vrd k e) s = .next (completeRead k (readValue k e s) s) := by
  cases k <;> rfl

theorem exists_vrd_of_read {i : Instr} (h : commandGroup i = .read) : ∃ k e, i = Instr.vrd k e := by
  cases i with
  | vrdUint8 e => exact ⟨.uint8, e, rfl⟩
  | vrdUint16 e => exact ⟨.uint16, e, rfl⟩
  | vrdInt16 e => exact ⟨.int16, e, rfl⟩
  | vrdUint32 e => exact ⟨.uint32, e, rfl⟩
  | vrdFloat32 e => exact ⟨.float32, e, rfl⟩
  | vrdEnum8 e => exact ⟨.enum8, e, rfl⟩
  | vrdBitfield8 e => exact ⟨.bitfield8, e, rfl⟩
  | _ => cases h

/-- R19, R23: a command that is no VRD leaves RESULT, RV and KIND. -/
theorem exec_keeps_result {i : Instr} {s t : State} (hg : commandGroup i ≠ .read) (h : exec i s = .next t) :
    t.result = s.result ∧ t.rv = s.rv ∧ t.kind = s.kind := by
  rcases exec_cases i s with ⟨-, c, h'⟩ | ⟨hread, -⟩ | ⟨-, b0, b1, b2, b3, h'⟩
  · rw [h] at h'
    cases h'
    simp
  · exact absurd hread hg
  · rw [h] at h'
    cases h'
    simp

/-- R23: the tags of the seven kinds, from KIND. -/
theorem resultTag_of_code {s : State} (hrv : s.rv = true) {k : Kind} (hk : s.kind = k.code) :
    resultTag s = some k.tag := by
  simp [resultTag, hrv, hk]

/-- Settles O44, by the shape of each command's next state and the kind that each code names. -/
theorem readSetsValidAndKind : Obligations.ReadSetsValidAndKind := by
  refine ⟨fun k e s => ⟨readValue k e s, exec_vrd k e s⟩, ?_, ?_, rfl, rfl, ?_, ?_⟩
  · intro i s t hg h
    exact (exec_keeps_result hg h).2
  · intro w r s t hd h
    rw [execWord_of_error hd] at h
    cases h
    exact ⟨rfl, rfl⟩
  · intro s hrv
    refine ⟨?_, resultTag_of_code hrv (k := .uint16), resultTag_of_code hrv (k := .int16),
      resultTag_of_code hrv (k := .uint32), resultTag_of_code hrv (k := .float32)⟩
    rintro (hk | hk | hk)
    · exact resultTag_of_code hrv (k := .uint8) hk
    · exact resultTag_of_code hrv (k := .enum8) hk
    · exact resultTag_of_code hrv (k := .bitfield8) hk
  · intro s hrv
    simp [resultTag, hrv]

/-! ## The writers of each register -/

theorem slotOffset_of_slotAt {off : BitVec 6} {sl : Slot} (h : slotAt off = some sl) : off = slotOffset sl := by
  revert off
  cases sl <;> decide

theorem storeSlot_data (sl : Option Slot) (v : Word) (s : State) :
    (storeSlot sl v s).data = if sl = some .data then v else s.data := by
  rcases sl with _ | _ | _ | _ | _ | _ | _ | _ | _ | _ <;> rfl

/-- The slot of byte i of the window. -/
def winSlot (i : Fin 4) : Slot :=
  match i with
  | 0 => .win0
  | 1 => .win1
  | 2 => .win2
  | 3 => .win3

theorem slotOffset_winSlot (i : Fin 4) : (slotOffset (winSlot i)).toNat = 0x14 + 4 * i.val := by
  revert i
  decide

theorem storeSlot_winByte (sl : Option Slot) (v : Word) (s : State) (i : Fin 4) :
    winByte (storeSlot sl v s) i = if sl = some (winSlot i) then byteOf v 0 else winByte s i := by
  rcases sl with _ | _ | _ | _ | _ | _ | _ | _ | _ | _ <;> fin_cases i <;> rfl

theorem exec_keeps_crc {i : Instr} {s t : State} (hg : commandGroup i ≠ .crc) (h : exec i s = .next t) :
    t.crc = s.crc := by
  rcases exec_cases i s with ⟨hcrc, -⟩ | ⟨-, k, v, h'⟩ | ⟨-, b0, b1, b2, b3, h'⟩
  · exact absurd hcrc hg
  all_goals
    rw [h] at h'
    cases h'
    simp

theorem exec_keeps_window {i : Instr} {s t : State} (hg : commandGroup i ≠ .write) (h : exec i s = .next t) :
    winByte t = winByte s := by
  rcases exec_cases i s with ⟨-, c, h'⟩ | ⟨-, k, v, h'⟩ | ⟨hwrite, -⟩
  · rw [h] at h'
    cases h'
    rfl
  · rw [h] at h'
    cases h'
    rfl
  · exact absurd hwrite hg

/-- Whatever of the state is neither ILL nor at the port changes out of reset only by a command or by a write to a
slot other than CMD. -/
theorem step_changes_by_command_or_store {α : Type} (f : State → α)
    (hf : ∀ s ill ps rs, f { s with ill := ill, pending := ps, replies := rs } = f s)
    {s t : State} (h : step s = .next t) (hr : ¬ underReset s) (hne : f t ≠ f s) :
    ∃ e es, s.pending = e :: es ∧
      ((∃ i, e.instr? = some i ∧ exec i (takeEvent s) = .next t) ∨
       ∃ off v, e = .write off 4 v ∧ t = storeSlot (slotAt off) v (takeEvent s)) := by
  rcases step_cases_outOfReset h hr with ⟨-, rfl⟩ | ⟨e, es, hp, hserved⟩
  · exact absurd rfl hne
  · refine ⟨e, es, hp, ?_⟩
    cases hserved with
    | noRegister rs ht =>
      subst ht
      exact absurd (hf s _ _ _) hne
    | command i hi ht => exact .inl ⟨i, hi, ht⟩
    | illegal he ht =>
      subst ht
      exact absurd (hf s _ _ _) hne
    | store off v he ht => exact .inr ⟨off, v, he, ht⟩

/-- R18: DATA has one writer out of reset, a write to its slot. -/
theorem step_data_writer {s t : State} (h : step s = .next t) (hr : ¬ underReset s) (hne : t.data ≠ s.data) :
    ∃ v es, s.pending = .write (slotOffset .data) 4 v :: es ∧ t.data = v := by
  obtain ⟨e, es, hp, ⟨i, -, ht⟩ | ⟨off, v, rfl, rfl⟩⟩ :=
    step_changes_by_command_or_store State.data (fun _ _ _ _ => rfl) h hr hne
  · obtain ⟨-, -, -, hdata, -⟩ := exec_keeps ht
    exact absurd hdata hne
  · rw [storeSlot_data] at hne ⊢
    split at hne
    next hsl =>
      rw [slotOffset_of_slotAt hsl] at hp
      exact ⟨v, es, hp, if_pos hsl⟩
    next => exact absurd rfl hne

/-- R19, R23: RESULT, RV and KIND have one writer out of reset, a VRD. -/
theorem step_result_writer {s t : State} (h : step s = .next t) (hr : ¬ underReset s)
    (hne : ¬ (t.result = s.result ∧ t.rv = s.rv ∧ t.kind = s.kind)) :
    ∃ e es, s.pending = e :: es ∧ e.runsGroup .read = true := by
  obtain ⟨e, es, hp, ⟨i, hi, ht⟩ | ⟨off, v, rfl, rfl⟩⟩ :=
    step_changes_by_command_or_store (fun s => (s.result, s.rv, s.kind)) (fun _ _ _ _ => rfl) h hr
      (by simpa using hne)
  · by_cases hg : commandGroup i = .read
    · exact ⟨e, es, hp, Event.runsGroup_of_instr hi hg⟩
    · exact absurd (exec_keeps_result hg ht) hne
  · exact absurd (by simp) hne

/-- R20: CRC has one kind of writer out of reset, the CRC commands. -/
theorem step_crc_writer {s t : State} (h : step s = .next t) (hr : ¬ underReset s) (hne : t.crc ≠ s.crc) :
    ∃ e es, s.pending = e :: es ∧ e.runsGroup .crc = true := by
  obtain ⟨e, es, hp, ⟨i, hi, ht⟩ | ⟨off, v, rfl, rfl⟩⟩ :=
    step_changes_by_command_or_store State.crc (fun _ _ _ _ => rfl) h hr hne
  · by_cases hg : commandGroup i = .crc
    · exact ⟨e, es, hp, Event.runsGroup_of_instr hi hg⟩
    · exact absurd (exec_keeps_crc hg ht) hne
  · exact absurd (storeSlot_crc _ _ _) hne

/-- R25, R26: a window byte has two kinds of writer out of reset, VWR and a write to its slot. -/
theorem step_window_writer {s t : State} (h : step s = .next t) (hr : ¬ underReset s) {i : Fin 4}
    (hne : winByte t i ≠ winByte s i) :
    ∃ e es, s.pending = e :: es ∧
      (e.runsGroup .write = true ∨
       ∃ off v, e = .write off 4 v ∧ off.toNat = 0x14 + 4 * i.val ∧ winByte t i = v.extractLsb' 0 8) := by
  obtain ⟨e, es, hp, ⟨j, hj, ht⟩ | ⟨off, v, he, rfl⟩⟩ :=
    step_changes_by_command_or_store (winByte · i) (fun _ _ _ _ => rfl) h hr hne
  · by_cases hg : commandGroup j = .write
    · exact ⟨e, es, hp, .inl (Event.runsGroup_of_instr hj hg)⟩
    · exact absurd (congrFun (exec_keeps_window hg ht) i) hne
  · rw [storeSlot_winByte] at hne ⊢
    split at hne
    next hsl =>
      have hoff : off.toNat = 0x14 + 4 * i.val := by rw [slotOffset_of_slotAt hsl, slotOffset_winSlot]
      exact ⟨e, es, hp, .inr ⟨off, v, he, hoff, if_pos hsl⟩⟩
    next => exact absurd rfl hne

/-- Settles O45, register by register. -/
theorem eachRegisterHasOnlyItsWriters : Obligations.EachRegisterHasOnlyItsWriters := by
  intro s t h hr
  refine ⟨?_, step_data_writer h hr, ?_, step_crc_writer h hr, fun i => step_window_writer h hr⟩
  · intro hp
    rcases step_cases_outOfReset h hr with ⟨-, ht⟩ | ⟨e, es, hp', -⟩
    · exact ht
    · rw [hp] at hp'
      cases hp'
  · intro hne
    exact step_result_writer h hr (by tauto)

/-! ## RESULT, RV and KIND over a run -/

theorem not_underReset_of_noReset {s : State} {e : Event} {es : List Event} (hrst : s.rst = false)
    (he : e.noReset = true) : ¬ underReset { s with pending := e :: es } := by
  rintro (hr | ⟨es', hp⟩)
  · simp [hrst] at hr
  · cases hp
    cases he

theorem rstAfter_of_noReset {e : Event} (he : e.noReset = true) : e.rstAfter false = false := by
  cases e with
  | read off size => rfl
  | write off size v => rfl
  | setRst level => simpa [Event.noReset, Event.rstAfter] using he

/-- R118: serving an event that is no reset and no VRD leaves RESULT, RV and KIND. -/
theorem serve_keeps_result {e : Event} {s t : State} (hrst : s.rst = false) (hn : e.noReset = true)
    (hg : e.runsGroup .read = false) (h : serve e s = .next t) :
    t.result = s.result ∧ t.rv = s.rv ∧ t.kind = s.kind := by
  have hstep : step { s with pending := [e] } = .next { t with pending := [] } := by
    rw [step_cons, h]
    rfl
  by_contra hne
  obtain ⟨e', es, hp, hg'⟩ := step_result_writer hstep (not_underReset_of_noReset hrst hn) hne
  cases hp
  simp [hg] at hg'

/-- Settles O46, by induction on the events of the run. -/
theorem resultOutlastsOtherCommands : Obligations.ResultOutlastsOtherCommands := by
  intro s t es hrst hes h
  induction es generalizing s with
  | nil =>
    cases (serves_nil s t).1 h
    exact ⟨rfl, rfl, rfl⟩
  | cons e es ih =>
    obtain ⟨u, hu, ht⟩ := (serves_cons s t e es).1 h
    obtain ⟨⟨hn, hg⟩, hes'⟩ := List.forall_mem_cons.1 hes
    have hurst : u.rst = false := by
      rw [serve_rst hu, hrst, rstAfter_of_noReset hn]
    obtain ⟨hresult, hrv, hkind⟩ := ih u hurst hes' ht
    obtain ⟨hresult', hrv', hkind'⟩ := serve_keeps_result hrst hn hg hu
    exact ⟨hresult.trans hresult', hrv.trans hrv', hkind.trans hkind'⟩

/-! ## Reset -/

/-- Settles O40: `rst` asserted and then deasserted, and the STATUS word of a state at reset. -/
theorem resetSetsEveryRegister : Obligations.ResetSetsEveryRegister := by
  intro s
  constructor
  · refine (serves_cons _ _ _ _).2 ⟨{ resetRegisters s with rst := true }, ?_, ?_⟩
    · rw [serve, driveRst_asserted]
    · refine serves_singleton (t := { resetRegisters s with rst := false }) ?_
      rw [serve, driveRst_low_of_high rfl]
      rfl
  · intro t ht
    rw [← ht]
    simp [readAt, readSlot, statusWord, zext32]

/-! ## The invariant -/

/-- The invariant at a state whose registers hold their reset values. -/
theorem AtReset.blockInv {s : State} (h : AtReset s) : BlockInv s where
  result_fits := by
    rw [← h]
    exact Nat.two_pow_pos 8
  before_first_read := by
    intro
    rw [← h]
    exact ⟨rfl, rfl⟩
  held_in_reset := fun _ => h

/-- Settles O56: the reset state is at reset. -/
theorem resetMeetsInvariant : Obligations.ResetMeetsInvariant :=
  AtReset.blockInv rfl

theorem zext32_toNat_lt {n : Nat} (v : BitVec n) : (zext32 v).toNat < 2 ^ n := by
  rw [zext32, BitVec.toNat_setWidth]
  exact (Nat.mod_le _ _).trans_lt v.isLt

theorem sext32_toInt (v : Half) : (sext32 v).toInt = v.toInt :=
  BitVec.toInt_signExtend_of_le (by decide)

/-- R19: what a VRD of a kind puts into RESULT fits the kind. -/
theorem resultFits_readValue (k : Kind) (e : Endian) (s : State) : resultFits k.code (readValue k e s) := by
  rw [resultFits, Kind_ofCode_code]
  cases k with
  | uint8 => exact zext32_toNat_lt _
  | uint16 => exact zext32_toNat_lt _
  | int16 =>
    simp only [readValue, sext32_toInt]
    exact ⟨BitVec.le_toInt _, BitVec.toInt_lt⟩
  | uint32 => trivial
  | float32 => trivial
  | enum8 => exact zext32_toNat_lt _
  | bitfield8 => exact zext32_toNat_lt _

/-- The invariant speaks of RESULT, RV and KIND alone while `rst` is low. -/
theorem BlockInv.of_result_kept {s t : State} (hs : BlockInv s) (hrst : t.rst = false)
    (hkept : t.result = s.result ∧ t.rv = s.rv ∧ t.kind = s.kind) : BlockInv t where
  result_fits := by
    obtain ⟨hresult, -, hkind⟩ := hkept
    rw [hresult, hkind]
    exact hs.result_fits
  before_first_read := by
    obtain ⟨hresult, hrv, hkind⟩ := hkept
    rw [hresult, hrv, hkind]
    exact hs.before_first_read
  held_in_reset := by simp [hrst]

/-- R19, R23: a VRD leaves the invariant, whatever the state before it. -/
theorem blockInv_completeRead {k : Kind} {e : Endian} {s : State} (hrst : s.rst = false) :
    BlockInv (completeRead k (readValue k e s) s) where
  result_fits := resultFits_readValue k e s
  before_first_read := by simp
  held_in_reset := by simp [hrst]

/-- R19, R23: a command served out of reset keeps the invariant. -/
theorem exec_keeps_blockInv {i : Instr} {s t : State} (hs : BlockInv s) (hrst : s.rst = false)
    (h : exec i s = .next t) : BlockInv t := by
  by_cases hg : commandGroup i = .read
  · obtain ⟨k, e, rfl⟩ := exists_vrd_of_read hg
    rw [exec_vrd] at h
    cases h
    exact blockInv_completeRead hrst
  · obtain ⟨-, -, hrst', -, -⟩ := exec_keeps h
    exact hs.of_result_kept (hrst'.trans hrst) (exec_keeps_result hg h)

/-- Settles O55: a step under reset resets the registers, and out of reset only a VRD touches what the invariant says. -/
theorem stepKeepsInvariant : Obligations.StepKeepsInvariant := by
  intro s t hs h
  by_cases hr : underReset s
  · exact (step_underReset h hr).blockInv
  · have hrst := rst_low_of_not_underReset hr
    rcases step_cases_outOfReset h hr with ⟨-, rfl⟩ | ⟨e, es, hp, hserved⟩
    · exact hs
    · cases hserved with
      | noRegister rs ht =>
        subst ht
        exact hs.of_result_kept hrst ⟨rfl, rfl, rfl⟩
      | command i hi ht =>
        have htaken : BlockInv (takeEvent s) := hs.of_result_kept hrst ⟨rfl, rfl, rfl⟩
        exact exec_keeps_blockInv htaken hrst ht
      | illegal he ht =>
        subst ht
        exact hs.of_result_kept hrst ⟨rfl, rfl, rfl⟩
      | store off v he ht =>
        subst ht
        exact hs.of_result_kept (by simp [hrst]) (by simp)

end Sys2Proof.Machine
end

section
/-! PROOFS of the family 20_memory: the numbers in the window, the register map, the interface contract, and the access
that each client line is. -/

namespace Sys2Proof.Machine

/-! ## The window as numbers -/

/-- R10: the high part of a concatenation is weighted by the size of the low part. -/
theorem toNat_append_eq_add {m n : Nat} (x : BitVec m) (y : BitVec n) :
    (x ++ y).toNat = 2 ^ n * x.toNat + y.toNat := by
  rw [BitVec.toNat_append, ← Nat.shiftLeft_add_eq_or_of_lt y.isLt, Nat.shiftLeft_eq, Nat.mul_comm]

/-- Settles O19: each concatenation of window bytes is their weighted sum. -/
theorem windowNumberByByteOrder : Obligations.WindowNumberByByteOrder := by
  intro s
  have hlittle : (winVal4 .little s).toNat =
      s.win0.toNat + 256 * s.win1.toNat + 256 ^ 2 * s.win2.toNat + 256 ^ 3 * s.win3.toNat := by
    simp only [winVal4, toNat_append_eq_add]
    omega
  refine ⟨?_, hlittle, ?_, ?_, ?_⟩
  · simp only [winVal2, toNat_append_eq_add]
    omega
  · simp only [winVal2, toNat_append_eq_add]
    omega
  · simp only [winVal4, toNat_append_eq_add]
    omega
  · intro h0 h1 h2 h3
    rw [hlittle, h0, h1, h2, h3]
    rfl

/-- Two neighbouring bytes of a word are its 16 bits there. -/
theorem byteOf_append_byteOf (v : Word) (i : Nat) :
    byteOf v (i + 1) ++ byteOf v i = v.extractLsb' (8 * i) 16 :=
  BitVec.extractLsb'_append_extractLsb'_eq_extractLsb' (by omega)

/-- The two bytes of a 16-bit number. -/
theorem halfHigh_append_halfLow (v : Half) : halfHigh v ++ halfLow v = v :=
  (BitVec.extractLsb'_append_extractLsb'_eq_extractLsb' rfl).trans BitVec.extractLsb'_eq_self

/-- R119: a wider number over a 16-bit one, byte by byte. -/
theorem append_halfHigh_append_halfLow {n : Nat} (x : BitVec n) (v : Half) :
    x ++ halfHigh v ++ halfLow v = x ++ v := by
  conv_rhs => rw [← halfHigh_append_halfLow v]
  exact BitVec.append_assoc ..

/-! ## The window after a write -/

/-- The state after VWR of a kind (R79 to R85): DATA's low bytes, as many as the kind is wide, put into the window. -/
def writeWindow (k : Kind) (e : Endian) (s : State) : State :=
  match k with
  | .uint8 => setWin1 e (byteOf s.data 0) s
  | .uint16 => setWin2 e (lowHalf s.data) s
  | .int16 => setWin2 e (lowHalf s.data) s
  | .uint32 => setWin4 e s.data s
  | .float32 => setWin4 e s.data s
  | .enum8 => setWin1 e (byteOf s.data 0) s
  | .bitfield8 => setWin1 e (byteOf s.data 0) s

theorem exec_vwr (k : Kind) (e : Endian) (s : State) :
    exec (Instr.vwr k e) s = .next (writeWindow k e s) := by
  cases k <;> rfl

/-- R78: `SetWin(1, E, v)` keeps WIN1 to WIN3. -/
theorem setWin1_winByte (e : Endian) (v : Byte) (s : State) {i : Fin 4} (hi : 1 ≤ i.val) :
    winByte (setWin1 e v s) i = winByte s i := by
  fin_cases i
  · simp at hi
  all_goals rfl

/-- R78: `SetWin(2, E, v)` keeps WIN2 and WIN3. -/
theorem setWin2_winByte (e : Endian) (v : Half) (s : State) {i : Fin 4} (hi : 2 ≤ i.val) :
    winByte (setWin2 e v s) i = winByte s i := by
  fin_cases i
  · simp at hi
  · simp at hi
  · exact setWin2_win2 e v s
  · exact setWin2_win3 e v s

/-- R43, R78: a write of width w keeps the window bytes from w on. -/
theorem writeWindow_winByte (k : Kind) (e : Endian) (s : State) {i : Fin 4} (hi : k.width ≤ i.val) :
    winByte (writeWindow k e s) i = winByte s i := by
  cases k with
  | uint8 => exact setWin1_winByte e _ s hi
  | uint16 => exact setWin2_winByte e _ s hi
  | int16 => exact setWin2_winByte e _ s hi
  | uint32 => exact absurd i.isLt (Nat.not_lt.2 hi)
  | float32 => exact absurd i.isLt (Nat.not_lt.2 hi)
  | enum8 => exact setWin1_winByte e _ s hi
  | bitfield8 => exact setWin1_winByte e _ s hi

/-- Settles O31: the bytes that a read after a write puts together, and the bytes the write kept. -/
theorem mixedWidthWindowViews : Obligations.MixedWidthWindowViews := by
  refine ⟨fun s => ⟨⟨_, _, rfl, rfl, ?_⟩, ⟨_, _, rfl, rfl, ?_⟩⟩, ?_,
    fun s => ⟨⟨_, _, rfl, rfl, ?_⟩, ⟨_, _, rfl, rfl, rfl⟩⟩⟩
  · exact congrArg zext32 (byteOf_append_byteOf s.data 0)
  · exact congrArg zext32 (byteOf_append_byteOf s.data 2)
  · intro k e s t h i hi
    rw [exec_vwr] at h
    cases h
    exact writeWindow_winByte k e s hi
  · exact append_halfHigh_append_halfLow (s.win3 ++ s.win2) (lowHalf s.data)

/-- Settles O20: the words are those of the encoder, and the width-1 meanings do not look at the order. -/
theorem orderBitSelectsByteOrder : Obligations.OrderBitSelectsByteOrder := by
  refine ⟨rfl, rfl, fun k e => ⟨?_, ?_⟩, fun k hk e s => ?_⟩
  · have hword : 0x30000000 ||| (e.bit.setWidth 32 <<< 8) ||| k.code.setWidth 32 = encode (Instr.vrd k e) := by
      cases k <;> cases e <;> rfl
    rw [hword, decodeWord_encode]
  · have hword : 0x40000000 ||| (e.bit.setWidth 32 <<< 8) ||| k.code.setWidth 32 = encode (Instr.vwr k e) := by
      cases k <;> cases e <;> rfl
    rw [hword, decodeWord_encode]
  · rw [exec_vrd, exec_vwr]
    cases k with
    | uint8 => exact ⟨rfl, rfl⟩
    | enum8 => exact ⟨rfl, rfl⟩
    | bitfield8 => exact ⟨rfl, rfl⟩
    | _ => cases hk

/-! ## Aligned accesses -/

/-- R32, R33: an aligned 32-bit read out of reset returns what the map says. -/
theorem serve_read_aligned {s : State} {off : BitVec 6} (hrst : s.rst = false) (hal : off.extractLsb' 0 2 = 0) :
    serve (.read off 4) s = .next (reply (readAt off s) s) := by
  simp only [serve, (accessRefusal_eq_none_iff _ _ _).2 ⟨hrst, rfl, hal⟩]

/-- R32, R33: an aligned 32-bit write out of reset does what the map says. -/
theorem serve_write_aligned {s : State} {off : BitVec 6} (v : Word) (hrst : s.rst = false)
    (hal : off.extractLsb' 0 2 = 0) : serve (.write off 4 v) s = writeAt off v s := by
  simp only [serve, (accessRefusal_eq_none_iff _ _ _).2 ⟨hrst, rfl, hal⟩]

/-- R45: a step serves the oldest event on the state that holds the others. -/
theorem step_of_pending {s : State} {e : Event} {es : List Event} (hp : s.pending = e :: es) :
    step s = serve e { s with pending := es } := by
  have htake : takeEvent s = { s with pending := es } := by simp [takeEvent, hp]
  rw [step, serveNext, hp, ← htake]

/-- R32: a write to a slot other than CMD stores. -/
theorem writeAt_of_ne_cmd {off : BitVec 6} (h : off ≠ slotOffset .cmd) (v : Word) (s : State) :
    writeAt off v s = .next (storeSlot (slotAt off) v s) := by
  unfold writeAt
  split
  next hcmd => exact absurd ((slotAt_eq_cmd_iff off).1 hcmd) h
  next => rfl

/-- R17: a write to CMD executes. -/
theorem writeAt_cmd (w : Word) (s : State) : writeAt (slotOffset .cmd) w s = execWord w s := rfl

/-- R17, R90: writing the word of CRC.BYTE to CMD takes the byte into the accumulator. -/
theorem writeAt_crcByte (b : Byte) (s : State) :
    writeAt (slotOffset .cmd) (encode (.crcByte b)) s = .next { s with crc := crcByteValue s.crc b } :=
  execWord_of_ok (decodeWord_encode (.crcByte b)) s

/-- R32: the slots from 0x24 on are reserved. -/
theorem slotAt_reserved {off : BitVec 6} (h : 0x24 ≤ off) : slotAt off = none := by
  revert off
  decide

/-- R34: a write to a reserved slot is ignored. -/
theorem writeAt_reserved {off : BitVec 6} (h : 0x24 ≤ off) (v : Word) (s : State) : writeAt off v s = .next s := by
  rw [writeAt, slotAt_reserved h]
  rfl

/-- R21, R32: the STATUS word as a number. -/
theorem statusWord_toNat (s : State) :
    (statusWord s).toNat = s.ill.toNat + 2 * s.rv.toNat + 4 * s.kind.toNat := by
  have hfields : (s.kind ++ BitVec.ofBool s.rv ++ BitVec.ofBool s.ill).toNat =
      s.ill.toNat + 2 * s.rv.toNat + 4 * s.kind.toNat := by
    simp only [toNat_append_eq_add, BitVec.toNat_ofBool]
    omega
  rw [statusWord, zext32, BitVec.toNat_setWidth_of_le (by decide), hfields]

/-- Settles O47, slot by slot; the reserved slots are those from 0x24 on. -/
theorem registerMap : Obligations.RegisterMap := by
  refine ⟨fun s => ⟨rfl, rfl, rfl, rfl, statusWord_toNat s, rfl, rfl, rfl, rfl, fun off hoff => ?_⟩,
    fun s v => ⟨rfl, rfl, rfl, rfl, rfl, rfl, rfl, rfl, rfl, fun off hoff => writeAt_reserved hoff v s⟩, ?_, ?_⟩
  · rw [readAt, slotAt_reserved hoff]
    rfl
  · intro s es off hrst hal hp
    rw [step_of_pending hp, ← readAt_withPending off s es]
    exact serve_read_aligned (s := { s with pending := es }) hrst hal
  · intro s es off v hrst hal hp
    rw [step_of_pending hp]
    exact serve_write_aligned (s := { s with pending := es }) v hrst hal

/-! ## Repeated accesses -/

/-- R35: a reply changes nothing that a read looks at. -/
theorem readAt_reply (off : BitVec 6) (v : Word) (s : State) : readAt off (reply v s) = readAt off s := by
  unfold readAt
  rcases slotAt off with _ | _ | _ | _ | _ | _ | _ | _ | _ | _ <;> rfl

/-- Settles O48, by induction on the number of reads. -/
theorem readsHaveNoSideEffect : Obligations.ReadsHaveNoSideEffect := by
  intro s off n hrst hal
  induction n generalizing s with
  | zero => simp [serves_nil]
  | succ n ih =>
    have hrest := ih (reply (readAt off s) s) hrst
    rw [readAt_reply, reply_replies, List.append_assoc] at hrest
    exact (serves_cons _ _ _ _).2 ⟨_, serve_read_aligned hrst hal, hrest⟩

/-- R36: a second store of the same value changes nothing. -/
theorem storeSlot_storeSlot (sl : Option Slot) (v : Word) (s : State) :
    storeSlot sl v (storeSlot sl v s) = storeSlot sl v s := by
  rcases sl with _ | _ | _ | _ | _ | _ | _ | _ | _ | _ <;> rfl

/-- Settles O49; the write that is not idempotent is CRC.BYTE 0 from the reset state. -/
theorem writeIdempotence : Obligations.WriteIdempotence := by
  refine ⟨?_, ?_, ?_⟩
  · intro off v s _ hoff
    refine ⟨_, writeAt_of_ne_cmd hoff v s, ?_⟩
    rw [writeAt_of_ne_cmd hoff, storeSlot_storeSlot]
  · rintro off v s (rfl | rfl | rfl | hoff)
    · rfl
    · rfl
    · rfl
    · exact writeAt_reserved hoff v s
  · have honce : crcByteValue State.reset.crc 0 = 0x40BF := by decide
    have htwice : crcByteValue 0x40BF 0 ≠ 0x40BF := by decide
    refine ⟨encode (.crcByte 0), State.reset, { State.reset with crc := 0x40BF },
      { State.reset with crc := crcByteValue 0x40BF 0 }, ?_, writeAt_crcByte _ _,
      fun h => htwice (congrArg State.crc h)⟩
    rw [writeAt_crcByte, honce]

/-! ## CRC.SER -/

/-- R32: out of reset, serving a write to a named slot other than CMD stores the value. -/
theorem serve_writeEvent {s : State} (hrst : s.rst = false) {sl : Slot} (hsl : sl ≠ .cmd) (v : Word) :
    serve (writeEvent sl v) s = .next (storeSlot (some sl) v s) := by
  have hoff : slotOffset sl ≠ slotOffset .cmd := fun h =>
    hsl (Option.some_inj.1 (by rw [← slotAt_slotOffset sl, h, slotAt_slotOffset]))
  rw [writeEvent, serve_write_aligned v hrst (slotOffset_aligned sl), writeAt_of_ne_cmd hoff, slotAt_slotOffset]

/-- R10: the low half of a zero-extended 16-bit number is the number. -/
theorem lowHalf_zext32 (v : Half) : lowHalf (zext32 v) = v := by
  rw [lowHalf, zext32, BitVec.extractLsb'_setWidth_of_le (by decide), BitVec.extractLsb'_eq_self]

/-- Settles O39: the three accesses of CRC.SER, one after the other. -/
theorem crcSerializesBigEndian : Obligations.CrcSerializesBigEndian := by
  intro s hrst
  have hread := serve_readEvent hrst .crc
  have hwrite := serve_writeEvent (s := reply (zext32 s.crc) s) hrst (sl := .data) (by decide) (zext32 s.crc)
  have hput := serve_encode (s := storeSlot (some .data) (zext32 s.crc) (reply (zext32 s.crc) s)) hrst
    (.vwrUint16 .big)
  have hserves := (serves_cons _ _ _ _).2 ⟨_, hread, (serves_cons _ _ _ _).2 ⟨_, hwrite, serves_singleton hput⟩⟩
  change Serves s (crcSerEvents (zext32 s.crc)) { s with
    data := zext32 s.crc, win0 := halfHigh s.crc, win1 := halfLow s.crc,
    pending := [], replies := s.replies ++ [zext32 s.crc] }
  simpa [crcSerEvents, storeSlot, setWin2, lowHalf_zext32] using hserves

/-! ## The interface contract -/

/-- R33, R99, R111: what puts an access outside the contract. -/
theorem accessRefusal_eq_some_iff (rst : Bool) (off : BitVec 6) (size : Nat) :
    (∃ r, accessRefusal? rst off size = some r) ↔ rst = true ∨ size ≠ 4 ∨ off.extractLsb' 0 2 ≠ 0 := by
  rw [← Option.ne_none_iff_exists', ne_eq, accessRefusal_eq_none_iff]
  cases rst <;> simp [imp_iff_not_or]

/-- The contract refuses an access under a name of its own, never as a command without a meaning. -/
theorem accessRefusal_ne_notModelled (rst : Bool) (off : BitVec 6) (size : Nat) (m : String) :
    accessRefusal? rst off size ≠ some (.notModelled m) := by
  unfold accessRefusal?
  split
  · simp
  · split
    · simp
    · split <;> simp

/-- Settles O50: a step that is refused is at such an access, and such an access is refused. -/
theorem refusedExactlyOutsideContract : Obligations.RefusedExactlyOutsideContract := by
  intro s
  refine ⟨⟨?_, ?_⟩, (nomatch ·), ?_⟩
  · rintro ⟨r, h⟩
    obtain ⟨es, off, size, hp, hr⟩ := step_refused h
    exact ⟨es, off, size, hp, (accessRefusal_eq_some_iff _ _ _).1 ⟨r, hr⟩⟩
  · rintro ⟨es, off, size, hp, hout⟩
    obtain ⟨r, hr⟩ := (accessRefusal_eq_some_iff _ _ _).2 hout
    refine ⟨r, ?_⟩
    obtain hp | ⟨v, hp⟩ := hp
    · simp only [step_of_pending hp, serve, hr]
    · simp only [step_of_pending hp, serve, hr]
  · intro m h
    obtain ⟨es, off, size, -, hr⟩ := step_refused h
    exact accessRefusal_ne_notModelled _ _ _ m hr

/-- R96, R97: a write inside the contract is served to its end, whatever the word. -/
theorem writeAt_answers (off : BitVec 6) (v : Word) (s : State) : ∃ t, writeAt off v s = .next t := by
  by_cases hoff : off = slotOffset .cmd
  · rw [hoff, writeAt_cmd]
    cases hd : decodeWord v with
    | ok i =>
      rw [execWord_of_ok hd]
      exact exec_answers i s
    | error r => exact ⟨_, execWord_of_error hd s⟩
  · exact ⟨_, writeAt_of_ne_cmd hoff v s⟩

/-- R33, R99, R111: an event is served exactly when the contract allows it. -/
theorem serve_answers_iff (e : Event) (s : State) : (∃ t, serve e s = .next t) ↔ e.allowed s.rst = true := by
  cases e with
  | read off size =>
    rw [Event.allowed_read, serve]
    cases accessRefusal? s.rst off size <;> simp
  | write off size v =>
    rw [Event.allowed_write, serve]
    cases accessRefusal? s.rst off size with
    | some r => simp
    | none => simpa using writeAt_answers off v s
  | setRst level => exact iff_of_true ⟨_, rfl⟩ rfl

/-- Settles O51, by induction on the events; each is allowed at the level of `rst` that those before it left. -/
theorem runCompletesExactlyInContract : Obligations.RunCompletesExactlyInContract := by
  intro s es
  induction es generalizing s with
  | nil => simp [serves_nil, inContract]
  | cons e es ih =>
    rw [inContract, Bool.and_eq_true, ← serve_answers_iff]
    constructor
    · rintro ⟨t, h⟩
      obtain ⟨u, hu, ht⟩ := (serves_cons _ _ _ _).1 h
      rw [← serve_rst hu]
      exact ⟨⟨u, hu⟩, (ih u).1 ⟨t, ht⟩⟩
    · rintro ⟨⟨u, hu⟩, hes⟩
      rw [← serve_rst hu] at hes
      obtain ⟨t, ht⟩ := (ih u).2 hes
      exact ⟨t, (serves_cons _ _ _ _).2 ⟨u, hu, ht⟩⟩

/-! ## Words of a line -/

/-- The character does not end a word: it is no blank, no comma and starts no comment. -/
def InWord (c : Char) : Prop := c ≠ ';' ∧ c ≠ ' ' ∧ c ≠ ','

/-- Characters that make one word of a line. -/
def IsWord (cs : List Char) : Prop := cs ≠ [] ∧ ∀ c ∈ cs, InWord c

theorem lexFrom_char {c : Char} (hc : InWord c) (acc cs : List Char) :
    lexFrom acc (c :: cs) = lexFrom (acc ++ [c]) cs := by
  obtain ⟨hcomment, hblank, hcomma⟩ := hc
  rw [lexFrom, if_neg hcomment, if_neg hblank, if_neg hcomma]

/-- The characters of a word are collected. -/
theorem lexFrom_append {cs : List Char} (h : ∀ c ∈ cs, InWord c) (acc rest : List Char) :
    lexFrom acc (cs ++ rest) = lexFrom (acc ++ cs) rest := by
  induction cs generalizing acc with
  | nil => simp
  | cons c cs ih =>
    obtain ⟨hc, hcs⟩ := List.forall_mem_cons.1 h
    rw [List.cons_append, lexFrom_char hc, ih hcs, List.append_assoc, List.singleton_append]

theorem flush_of_isWord {cs : List Char} (h : IsWord cs) : flush cs = [.word cs] := by
  simp [flush, h.1]

/-- A word at the end of a line. -/
theorem lexFrom_last {cs : List Char} (h : IsWord cs) : lexFrom [] cs = [.word cs] := by
  have hlex := lexFrom_append h.2 [] []
  rw [List.append_nil, List.nil_append] at hlex
  rw [hlex, lexFrom, flush_of_isWord h]

/-- A word before a blank. -/
theorem lexFrom_blank {cs : List Char} (h : IsWord cs) (rest : List Char) :
    lexFrom [] (cs ++ ' ' :: rest) = .word cs :: lexFrom [] rest := by
  rw [lexFrom_append h.2, List.nil_append, lexFrom, if_neg (by decide), if_pos rfl, flush_of_isWord h]
  rfl

/-- A word before a comma. -/
theorem lexFrom_comma {cs : List Char} (h : IsWord cs) (rest : List Char) :
    lexFrom [] (cs ++ ',' :: rest) = .word cs :: .comma :: lexFrom [] rest := by
  rw [lexFrom_append h.2, List.nil_append, lexFrom, if_neg (by decide), if_neg (by decide), if_pos rfl,
    flush_of_isWord h]
  rfl

/-- R66: nothing from the first `;` on counts. -/
theorem lexFrom_comment (acc cs rest : List Char) : lexFrom acc (cs ++ ';' :: rest) = lexFrom acc cs := by
  induction cs generalizing acc with
  | nil => simp [lexFrom]
  | cons c cs ih => simp only [List.cons_append, lexFrom, ih]

/-- A line of blanks has no tokens. -/
theorem lexFrom_blanks (n : Nat) : lexFrom [] (List.replicate n ' ') = [] := by
  induction n with
  | zero => rfl
  | succ n ih => simp [List.replicate_succ, lexFrom, flush, ih]

/-! ## Decimal numbers -/

theorem digit?_of_isDigit {c : Char} (h : c.isDigit = true) : digit? 10 c = some (c.toNat - '0'.toNat) := by
  have hbounds : 48 ≤ c.toNat ∧ c.toNat ≤ 57 := by
    simpa [Char.isDigit, Char.le_def, UInt32.le_iff_toNat_le] using h
  have hzero : '0'.toNat = 48 := rfl
  simp only [digit?, if_pos hbounds, hzero]
  exact if_pos (by omega)

/-- Decimal digits spell the number that the library reads from them. -/
theorem digitsFrom_ten {cs : List Char} (h : ∀ c ∈ cs, c.isDigit = true) (acc : Nat) :
    digitsFrom 10 acc cs = some (Nat.ofDigitChars 10 cs acc) := by
  induction cs generalizing acc with
  | nil => rfl
  | cons c cs ih =>
    obtain ⟨hc, hcs⟩ := List.forall_mem_cons.1 h
    rw [digitsFrom, digit?_of_isDigit hc, Option.bind_some, ih hcs, Nat.ofDigitChars_cons, Nat.mul_comm]

/-- Decimal digits are no hex number: `x` is no digit. -/
theorem number?_of_digits {cs : List Char} (h : ∀ c ∈ cs, c.isDigit = true) (hne : cs ≠ []) :
    number? cs = digitsFrom 10 0 cs := by
  unfold number?
  split
  next => exact absurd rfl hne
  next => exact absurd (h 'x' (by simp)) (by decide)
  next => exact absurd (h 'x' (by simp)) (by decide)
  next => rfl

theorem isDigit_of_mem_decimal (n : Nat) : ∀ c ∈ Nat.toDigits 10 n, c.isDigit = true :=
  fun _ => Nat.isDigit_of_mem_toDigits (by decide) (by decide)

theorem inWord_of_isDigit {c : Char} (h : c.isDigit = true) : InWord c := by
  refine ⟨?_, ?_, ?_⟩ <;> (rintro rfl; revert h; decide)

/-- The decimal text of a number is one word. -/
theorem isWord_decimal (n : Nat) : IsWord (Nat.toDigits 10 n) :=
  ⟨Nat.toDigits_ne_nil, fun c hc => inWord_of_isDigit (isDigit_of_mem_decimal n c hc)⟩

/-- R65: the decimal text of a number spells it. -/
theorem number?_decimal (n : Nat) : number? (Nat.toDigits 10 n) = some n := by
  rw [number?_of_digits (isDigit_of_mem_decimal n) Nat.toDigits_ne_nil, digitsFrom_ten (isDigit_of_mem_decimal n),
    Nat.ofDigitChars_ten_toDigits]

/-- The decimal text of a word spells it. -/
theorem word?_decimal (v : Word) : word? (Nat.toDigits 10 v.toNat) = some v := by
  rw [word?, number?_decimal, Option.bind_some, if_pos v.isLt, BitVec.ofNat_toNat, BitVec.setWidth_eq]

/-! ## Mnemonics -/

/-- R65: a command that assembles passes the assembler's check. -/
theorem wellFormed_of_assemble {a : AsmCommand} {i : Instr} (h : assemble a = some i) : a.wellFormed = true := by
  unfold assemble at h
  split at h
  next hw => exact hw
  next => cases h

theorem assemble_crcByte (b : Byte) : assemble (.crcByte b.toNat) = some (.crcByte b) := by
  have hw : (AsmCommand.crcByte b.toNat).wellFormed = true := decide_eq_true (Nat.le_of_lt_succ b.isLt)
  rw [assemble, if_pos hw]
  simp

theorem isWord_crcByte : IsWord "CRC.BYTE".toList := by
  simp [IsWord, InWord]

/-- R65: the text of CRC.BYTE is its mnemonic and its operand in decimal. -/
theorem lex_disassemble_crcByte (b : Byte) :
    lex (disassemble (.crcByte b)) = [.word "CRC.BYTE".toList, .word (Nat.toDigits 10 b.toNat)] := by
  have htext : ("CRC.BYTE " ++ Nat.repr b.toNat).toList = "CRC.BYTE".toList ++ ' ' :: Nat.toDigits 10 b.toNat := by
    simp
  change lexFrom [] ("CRC.BYTE " ++ Nat.repr b.toNat).toList = _
  rw [htext, lexFrom_blank isWord_crcByte, lexFrom_last (isWord_decimal _)]

/-- R65: the assembler text of a command is CRC.INIT alone, or a mnemonic and its operand, which assemble to it. -/
theorem lex_disassemble (i : Instr) :
    i = .crcInit ∨ ∃ m x a, lex (disassemble i) = [.word m, .word x] ∧
      parseCommand [.word m, .word x] = some a ∧ assemble a = some i := by
  cases i with
  | crcInit => exact .inl rfl
  | crcByte b =>
    refine .inr ⟨_, _, _, lex_disassemble_crcByte b, ?_, assemble_crcByte b⟩
    rw [parseCommand, if_pos rfl, number?_decimal]
    rfl
  | _ e => cases e <;> exact .inr ⟨_, _, _, rfl, rfl, rfl⟩

/-! ## Lines -/

theorem isWord_slotName (sl : Slot) : IsWord (slotName sl).toList := by
  cases sl <;> simp [IsWord, InWord, slotName]

theorem isWord_read : IsWord ['R'] := by
  simp [IsWord, InWord]

theorem isWord_write : IsWord ['W'] := by
  simp [IsWord, InWord]

theorem isWord_arrow : IsWord ['-', '>'] := by
  simp [IsWord, InWord]

theorem slot?_slotName (sl : Slot) : slot? (slotName sl).toList = some sl := by
  cases sl <;> decide

/-- A line that parses expands to its accesses. -/
theorem lineEvents_of_tokens {line : String} {l : ClientLine} (c : Word) (hl : parseTokens (lex line) = some l)
    (hw : l.wellFormed = true) : lineEvents c line = expand c l := by
  simp [lineEvents, parseLine, hl, hw]

/-- R66: `R <slot>` reads the slot. -/
theorem lineEvents_read (c : Word) (sl : Slot) : lineEvents c ("R " ++ slotName sl) = some [readEvent sl] := by
  have hlex : lex ("R " ++ slotName sl) = [.word ['R'], .word (slotName sl).toList] := by
    have htext : ("R " ++ slotName sl).toList = ['R'] ++ ' ' :: (slotName sl).toList := by simp
    rw [lex, htext, lexFrom_blank isWord_read, lexFrom_last (isWord_slotName sl)]
  refine lineEvents_of_tokens (l := .read sl) c ?_ rfl
  rw [hlex]
  simp [parseTokens, slot?_slotName]

/-- R66: a shown reply is no part of the access. -/
theorem lineEvents_readShown (c v : Word) (sl : Slot) :
    lineEvents c ("R " ++ slotName sl ++ " -> " ++ Nat.repr v.toNat) = some [readEvent sl] := by
  have hlex : lex ("R " ++ slotName sl ++ " -> " ++ Nat.repr v.toNat) =
      [.word ['R'], .word (slotName sl).toList, .word ['-', '>'], .word (Nat.toDigits 10 v.toNat)] := by
    have htext : ("R " ++ slotName sl ++ " -> " ++ Nat.repr v.toNat).toList =
        ['R'] ++ ' ' :: ((slotName sl).toList ++ ' ' :: (['-', '>'] ++ ' ' :: Nat.toDigits 10 v.toNat)) := by simp
    rw [lex, htext, lexFrom_blank isWord_read, lexFrom_blank (isWord_slotName sl), lexFrom_blank isWord_arrow,
      lexFrom_last (isWord_decimal _)]
  refine lineEvents_of_tokens (l := .read sl) c ?_ rfl
  rw [hlex]
  simp [parseTokens, slot?_slotName]

/-- The tokens of a write line: the slot, a comma, and what the rest of the line holds. -/
theorem lex_write (sl : Slot) (value : String) :
    lex ("W " ++ slotName sl ++ ", " ++ value) =
      .word ['W'] :: .word (slotName sl).toList :: .comma :: lex value := by
  have htext : ("W " ++ slotName sl ++ ", " ++ value).toList =
      ['W'] ++ ' ' :: ((slotName sl).toList ++ ',' :: ' ' :: value.toList) := by simp
  rw [lex, htext, lexFrom_blank isWord_write, lexFrom_comma (isWord_slotName sl)]
  rfl

/-- R66: `W <slot>, <value>` writes the value to the slot. -/
theorem lineEvents_write (c v : Word) (sl : Slot) :
    lineEvents c ("W " ++ slotName sl ++ ", " ++ Nat.repr v.toNat) = some [writeEvent sl v] := by
  have hvalue : lex (Nat.repr v.toNat) = [.word (Nat.toDigits 10 v.toNat)] := by
    rw [lex, Nat.toList_repr]
    exact lexFrom_last (isWord_decimal _)
  refine lineEvents_of_tokens (l := .write sl v) c ?_ rfl
  rw [lex_write, hvalue]
  simp [parseTokens, word?_decimal, slot?_slotName]

/-- R66: a value written to CMD may be a mnemonic with its operand. -/
theorem parseTokens_writeCommand {m x : List Char} {a : AsmCommand} (h : parseCommand [.word m, .word x] = some a) :
    parseTokens [.word ['W'], .word (slotName .cmd).toList, .comma, .word m, .word x] = some (.writeCommand a) := by
  simp [parseTokens, h, slot?_slotName]

/-- R65, R66: the text of a command, written to CMD, issues the command. -/
theorem lineEvents_writeCommand (c : Word) (i : Instr) :
    lineEvents c ("W CMD, " ++ disassemble i) = some [commandEvent (encode i)] := by
  obtain rfl | ⟨m, x, a, hlex, hparse, hasm⟩ := lex_disassemble i
  · exact lineEvents_of_tokens (l := .writeCommand .crcInit) c (by decide) rfl
  · have hw := wellFormed_of_assemble hasm
    have hline : lex ("W CMD, " ++ disassemble i) =
        [.word ['W'], .word (slotName .cmd).toList, .comma, .word m, .word x] := by
      rw [← hlex]
      exact lex_write .cmd (disassemble i)
    rw [lineEvents_of_tokens (l := .writeCommand a) c (by rw [hline, parseTokens_writeCommand hparse]) hw]
    simp [expand, commandEvents, hasm, ClientLine.wellFormed, hw]

/-- R66: a comment changes nothing of a line. -/
theorem lineEvents_comment (c : Word) (line rest : String) :
    lineEvents c (line ++ ";" ++ rest) = lineEvents c line := by
  have hlex : lex (line ++ ";" ++ rest) = lex line := by
    have htext : (line ++ ";" ++ rest).toList = line.toList ++ ';' :: rest.toList := by simp
    rw [lex, htext, lexFrom_comment, lex]
  simp only [lineEvents, parseLine, hlex]

/-- R66: a line of blanks is no access. -/
theorem lineEvents_blanks (c : Word) (n : Nat) : lineEvents c (String.ofList (List.replicate n ' ')) = some [] := by
  refine lineEvents_of_tokens (l := .comment) c ?_ rfl
  rw [lex, String.toList_ofList, lexFrom_blanks]
  rfl

/-- Settles O59; the table of the statement is the names and the offsets of the nine slots. -/
theorem clientLinesAreTheirAccesses : Obligations.ClientLinesAreTheirAccesses := by
  refine ⟨?_, lineEvents_writeCommand, lineEvents_comment, ?_⟩
  · have hslot : ∀ sl ∈ allSlots, ∀ c : Word,
        lineEvents c ("R " ++ slotName sl) = some [readEvent sl] ∧
        (∀ v : Word, lineEvents c ("R " ++ slotName sl ++ " -> " ++ Nat.repr v.toNat) = some [readEvent sl]) ∧
        (∀ v : Word, lineEvents c ("W " ++ slotName sl ++ ", " ++ Nat.repr v.toNat) = some [writeEvent sl v]) :=
      fun sl _ c => ⟨lineEvents_read c sl, fun v => lineEvents_readShown c v sl, fun v => lineEvents_write c v sl⟩
    exact List.forall_mem_map (f := fun sl => (slotName sl, slotOffset sl)) (l := allSlots).2 hslot
  · intro c n rest
    rw [lineEvents_comment, lineEvents_blanks]

end Sys2Proof.Machine
end

section
/-! PROOFS of the family 30_encoding: the decoder and the encoder are inverse, the rows of the opcode table, illegal
words, the count of legal words, and the assembler. -/

namespace Sys2Proof.Machine

/-! ## Commands by format -/

/-- R52: a command is CRC.INIT, CRC.BYTE of a byte, or VRD or VWR of a kind and an order. -/
theorem Instr.byFormat {motive : Instr → Prop} (crcInit : motive .crcInit) (crcByte : ∀ b, motive (.crcByte b))
    (vrd : ∀ k e, motive (Instr.vrd k e)) (vwr : ∀ k e, motive (Instr.vwr k e)) (i : Instr) : motive i := by
  cases i with
  | crcInit => exact crcInit
  | crcByte b => exact crcByte b
  | vrdUint8 e => exact vrd .uint8 e
  | vrdUint16 e => exact vrd .uint16 e
  | vrdInt16 e => exact vrd .int16 e
  | vrdUint32 e => exact vrd .uint32 e
  | vrdFloat32 e => exact vrd .float32 e
  | vrdEnum8 e => exact vrd .enum8 e
  | vrdBitfield8 e => exact vrd .bitfield8 e
  | vwrUint8 e => exact vwr .uint8 e
  | vwrUint16 e => exact vwr .uint16 e
  | vwrInt16 e => exact vwr .int16 e
  | vwrUint32 e => exact vwr .uint32 e
  | vwrFloat32 e => exact vwr .float32 e
  | vwrEnum8 e => exact vwr .enum8 e
  | vwrBitfield8 e => exact vwr .bitfield8 e

theorem encode_vrd (k : Kind) (e : Endian) : encode (Instr.vrd k e) = encodeFormatV 0x3 k e := by
  cases k <;> rfl

theorem encode_vwr (k : Kind) (e : Endian) : encode (Instr.vwr k e) = encodeFormatV 0x4 k e := by
  cases k <;> rfl

/-! ## The encoder undoes the decoder -/

/-- R53: the two fields of a format-I word. -/
theorem formatI_fields (w : Word) : w.extractLsb' 28 4 ++ w.extractLsb' 0 28 = w := by
  simp (disch := rfl) only [BitVec.extractLsb'_append_extractLsb'_eq_extractLsb', BitVec.extractLsb'_eq_self]

/-- R54: the three fields of a format-B word. -/
theorem formatB_fields (w : Word) : w.extractLsb' 28 4 ++ w.extractLsb' 8 20 ++ w.extractLsb' 0 8 = w := by
  simp (disch := rfl) only [BitVec.extractLsb'_append_extractLsb'_eq_extractLsb', BitVec.extractLsb'_eq_self]

/-- R55: the five fields of a format-V word. -/
theorem formatV_fields (w : Word) :
    w.extractLsb' 28 4 ++ w.extractLsb' 9 19 ++ w.extractLsb' 8 1 ++ w.extractLsb' 3 5 ++ w.extractLsb' 0 3 = w := by
  simp (disch := rfl) only [BitVec.extractLsb'_append_extractLsb'_eq_extractLsb', BitVec.extractLsb'_eq_self]

@[simp] theorem Endian_bit_ofBit (b : BitVec 1) : (Endian.ofBit b).bit = b := by
  revert b
  decide

/-- R55, R61: a format-V word that decodes holds no more than its OP, the order and the kind. -/
theorem encode_of_decodeFormatV {mk : Kind → Endian → Instr} {op : BitVec 4} {w : Word} {i : Instr}
    (hmk : ∀ k e, encode (mk k e) = encodeFormatV op k e) (hop : w.extractLsb' 28 4 = op)
    (h : decodeFormatV mk w = .ok i) : encode i = w := by
  unfold decodeFormatV at h
  split at h
  next hres =>
    obtain ⟨hhigh, hlow⟩ := hres
    split at h
    next k hk =>
      cases h
      rw [hmk, encodeFormatV, Endian_bit_ofBit, ← Kind_code_of_ofCode hk, ← hop, ← hhigh, ← hlow, formatV_fields]
    next => cases h
  next => cases h

/-- R53 to R55, R61: a word that decodes is the word of its command. -/
theorem encode_of_decodeWord {w : Word} {i : Instr} (h : decodeWord w = .ok i) : encode i = w := by
  unfold decodeWord at h
  dsimp only at h
  split at h
  next hop =>
    split at h
    next hres =>
      cases h
      rw [encode, ← hop, ← hres, formatI_fields]
    next => cases h
  next =>
    split at h
    next hop =>
      split at h
      next hres =>
        cases h
        rw [encode, ← hop, ← hres, formatB_fields]
      next => cases h
    next =>
      split at h
      next hop => exact encode_of_decodeFormatV encode_vrd hop h
      next =>
        split at h
        next hop => exact encode_of_decodeFormatV encode_vwr hop h
        next => cases h

/-- R58: a word spells a command exactly when it is the command's word. -/
theorem decodeWord_eq_ok_iff {w : Word} {i : Instr} : decodeWord w = .ok i ↔ encode i = w :=
  ⟨encode_of_decodeWord, fun h => h ▸ decodeWord_encode i⟩

/-- Settles O1, by the decoder's value at each word of the encoder. -/
theorem decodeOfEncode : Obligations.DecodeOfEncode :=
  fun i _ => decodeWord_encode i

/-- Settles O2, format by format: the fields that the decoder reads make up the whole word. -/
theorem encodeOfDecode : Obligations.EncodeOfDecode :=
  fun _ _ => encode_of_decodeWord

/-! ## Rows of the opcode table -/

/-- Two words are equal when they agree under a mask and in a field that holds every bit the mask leaves out. -/
theorem eq_of_masked_eq_of_field_eq {v w m : Word} {start len : Nat}
    (hcover : ∀ i < 32, m.getLsbD i = true ∨ start ≤ i ∧ i < start + len) (hmask : v &&& m = w &&& m)
    (hfield : v.extractLsb' start len = w.extractLsb' start len) : v = w := by
  refine BitVec.eq_of_getLsbD_eq fun i hi => ?_
  obtain hm | ⟨hstart, hend⟩ := hcover i hi
  · have hbit := congrArg (·.getLsbD i) hmask
    simpa [hm] using hbit
  · have hbit := congrArg (·.getLsbD (i - start)) hfield
    have hlen : i - start < len := by omega
    simpa [hlen, Nat.add_sub_cancel' hstart] using hbit

/-- R59: when a command's word matches a row, and the row's mask leaves one field free, a word spells the command
exactly when it matches the row and has the command's operand in that field. -/
theorem decodeWord_eq_ok_iff_masked {i : Instr} {m pattern : Word} {start len : Nat}
    (hcover : ∀ n < 32, m.getLsbD n = true ∨ start ≤ n ∧ n < start + len) (hrow : encode i &&& m = pattern)
    (w : Word) :
    decodeWord w = .ok i ↔ w &&& m = pattern ∧ (encode i).extractLsb' start len = w.extractLsb' start len := by
  rw [decodeWord_eq_ok_iff]
  constructor
  · rintro rfl
    exact ⟨hrow, rfl⟩
  · rintro ⟨hmask, hfield⟩
    exact eq_of_masked_eq_of_field_eq hcover (hrow.trans hmask.symm) hfield

theorem decodeWord_eq_crcInit_iff (w : Word) :
    decodeWord w = .ok .crcInit ↔ w &&& 0xFFFFFFFF = 0x10000000 := by
  have hmask : encode .crcInit &&& 0xFFFFFFFF = 0x10000000 := rfl
  rw [decodeWord_eq_ok_iff_masked (m := 0xFFFFFFFF) (start := 0) (len := 0) (by decide) hmask,
    and_iff_left (Subsingleton.elim _ _)]

theorem encode_crcByte (b : Byte) : encode (.crcByte b) = 0x20000000 ||| b.setWidth 32 := by
  revert b
  decide

theorem decodeWord_eq_crcByte_iff (w : Word) (b : Byte) :
    decodeWord w = .ok (.crcByte b) ↔ w &&& 0xFFFFFF00 = 0x20000000 ∧ b = w.extractLsb' 0 8 := by
  have hrow : encode (.crcByte b) &&& 0xFFFFFF00 = 0x20000000 ∧ (encode (.crcByte b)).extractLsb' 0 8 = b := by
    revert b
    decide
  obtain ⟨hmask, hfield⟩ := hrow
  rw [decodeWord_eq_ok_iff_masked (m := 0xFFFFFF00) (start := 0) (len := 8) (by decide) hmask, hfield]

theorem decodeWord_eq_vrd_iff (w : Word) (k : Kind) (e : Endian) :
    decodeWord w = .ok (Instr.vrd k e) ↔
      w &&& 0xFFFFFEFF = 0x30000000 ||| k.code.setWidth 32 ∧ e.bit = w.extractLsb' 8 1 := by
  have hmask : encode (Instr.vrd k e) &&& 0xFFFFFEFF = 0x30000000 ||| k.code.setWidth 32 := by
    cases k <;> cases e <;> rfl
  have hfield : (encode (Instr.vrd k e)).extractLsb' 8 1 = e.bit := by
    cases k <;> cases e <;> rfl
  rw [decodeWord_eq_ok_iff_masked (m := 0xFFFFFEFF) (start := 8) (len := 1) (by decide) hmask, hfield]

theorem decodeWord_eq_vwr_iff (w : Word) (k : Kind) (e : Endian) :
    decodeWord w = .ok (Instr.vwr k e) ↔
      w &&& 0xFFFFFEFF = 0x40000000 ||| k.code.setWidth 32 ∧ e.bit = w.extractLsb' 8 1 := by
  have hmask : encode (Instr.vwr k e) &&& 0xFFFFFEFF = 0x40000000 ||| k.code.setWidth 32 := by
    cases k <;> cases e <;> rfl
  have hfield : (encode (Instr.vwr k e)).extractLsb' 8 1 = e.bit := by
    cases k <;> cases e <;> rfl
  rw [decodeWord_eq_ok_iff_masked (m := 0xFFFFFEFF) (start := 8) (len := 1) (by decide) hmask, hfield]

/-- The row of a value command (R59): its mask leaves the E bit free. -/
def valueRow (mk : Kind → Endian → Instr) (op : Word) (k : Kind) : OpcodeRow :=
  ⟨(mk k .little).mnemonic, op ||| k.code.setWidth 32, 0xFFFFFEFF⟩

theorem mem_allKinds (k : Kind) : k ∈ allKinds := by
  cases k <;> decide

/-- R59: the table has a row for each CRC command, and one for each kind of VRD and of VWR. -/
theorem mem_opcodeTable_iff (r : OpcodeRow) :
    r ∈ opcodeTable ↔ r = ⟨"CRC.INIT", 0x10000000, 0xFFFFFFFF⟩ ∨ r = ⟨"CRC.BYTE", 0x20000000, 0xFFFFFF00⟩ ∨
      (∃ k, r = valueRow Instr.vrd 0x30000000 k) ∨ ∃ k, r = valueRow Instr.vwr 0x40000000 k := by
  have htable : opcodeTable = ⟨"CRC.INIT", 0x10000000, 0xFFFFFFFF⟩ :: ⟨"CRC.BYTE", 0x20000000, 0xFFFFFF00⟩ ::
      (allKinds.map (valueRow Instr.vrd 0x30000000) ++ allKinds.map (valueRow Instr.vwr 0x40000000)) := rfl
  simp [htable, mem_allKinds, eq_comm]

theorem spelledBy_iff (r : OpcodeRow) (w : Word) : r.spelledBy w = true ↔ w &&& r.mask = r.pattern :=
  beq_iff_eq

/-- R59: a legal word matches the row of its command. -/
theorem exists_row_of_decodeWord {w : Word} {i : Instr} (h : decodeWord w = .ok i) :
    ∃ r ∈ opcodeTable, r.spelledBy w = true := by
  simp only [mem_opcodeTable_iff, spelledBy_iff]
  induction i using Instr.byFormat with
  | crcInit => exact ⟨_, .inl rfl, (decodeWord_eq_crcInit_iff w).1 h⟩
  | crcByte b => exact ⟨_, .inr (.inl rfl), ((decodeWord_eq_crcByte_iff w b).1 h).1⟩
  | vrd k e => exact ⟨_, .inr (.inr (.inl ⟨k, rfl⟩)), ((decodeWord_eq_vrd_iff w k e).1 h).1⟩
  | vwr k e => exact ⟨_, .inr (.inr (.inr ⟨k, rfl⟩)), ((decodeWord_eq_vwr_iff w k e).1 h).1⟩

/-- R59: a word that matches a row spells a command with the row's mnemonic. -/
theorem decodeWord_of_spelledBy {w : Word} {r : OpcodeRow} (hr : r ∈ opcodeTable) (h : r.spelledBy w = true) :
    ∃ i, decodeWord w = .ok i ∧ i.mnemonic = r.mnemonic := by
  rw [spelledBy_iff] at h
  obtain rfl | rfl | ⟨k, rfl⟩ | ⟨k, rfl⟩ := (mem_opcodeTable_iff r).1 hr
  · exact ⟨_, (decodeWord_eq_crcInit_iff w).2 h, rfl⟩
  · exact ⟨_, (decodeWord_eq_crcByte_iff w _).2 ⟨h, rfl⟩, rfl⟩
  · refine ⟨_, (decodeWord_eq_vrd_iff w k (.ofBit (w.extractLsb' 8 1))).2 ⟨h, Endian_bit_ofBit _⟩, ?_⟩
    cases k <;> rfl
  · refine ⟨_, (decodeWord_eq_vwr_iff w k (.ofBit (w.extractLsb' 8 1))).2 ⟨h, Endian_bit_ofBit _⟩, ?_⟩
    cases k <;> rfl

theorem opcodeTable_mnemonics_nodup : (opcodeTable.map OpcodeRow.mnemonic).Nodup := by
  decide

/-- R59: a word is legal exactly when it matches a row. -/
theorem decodes_iff_spelled (w : Word) :
    (∃ i, decodeWord w = .ok i) ↔ ∃ r ∈ opcodeTable, r.spelledBy w = true := by
  constructor
  · rintro ⟨i, hi⟩
    exact exists_row_of_decodeWord hi
  · rintro ⟨r, hr, hw⟩
    obtain ⟨i, hi, -⟩ := decodeWord_of_spelledBy hr hw
    exact ⟨i, hi⟩

/-- R59: a word matches one row at most, for the rows it matches have the mnemonic of the one command it spells. -/
theorem row_unique {w : Word} {r r' : OpcodeRow} (hr : r ∈ opcodeTable) (hr' : r' ∈ opcodeTable)
    (hw : r.spelledBy w = true) (hw' : r'.spelledBy w = true) : r = r' := by
  obtain ⟨i, hi, hmn⟩ := decodeWord_of_spelledBy hr hw
  obtain ⟨j, hj, hmn'⟩ := decodeWord_of_spelledBy hr' hw'
  have hij : i = j := Except.ok.inj (hi.symm.trans hj)
  exact List.inj_on_of_nodup_map opcodeTable_mnemonics_nodup hr hr' (by rw [← hmn, ← hmn', hij])

/-- Settles O3: the rows by mask and match, and the table as the list of those rows. -/
theorem wordSpellsCommandByMaskAndMatch : Obligations.WordSpellsCommandByMaskAndMatch :=
  ⟨decodeWord_eq_crcInit_iff, decodeWord_eq_crcByte_iff, decodeWord_eq_vrd_iff, decodeWord_eq_vwr_iff,
    decodes_iff_spelled, fun _ _ hr _ hr' => row_unique hr hr'⟩

/-! ## Illegal words -/

/-- R60: an OP that no format has. -/
theorem decodeWord_of_reservedOp {w : Word} (h : w.extractLsb' 28 4 = 0x0 ∨ 0x5 ≤ w.extractLsb' 28 4) :
    decodeWord w = .error .reservedOp := by
  have hop : ∀ op : BitVec 4, op = 0x0 ∨ 0x5 ≤ op → op ≠ 0x1 ∧ op ≠ 0x2 ∧ op ≠ 0x3 ∧ op ≠ 0x4 := by decide
  obtain ⟨h1, h2, h3, h4⟩ := hop _ h
  simp only [decodeWord, if_neg h1, if_neg h2, if_neg h3, if_neg h4]

/-- R58: a word with a format-V OP is read as format V. -/
theorem decodeWord_of_formatV {w : Word} (h : w.extractLsb' 28 4 = 0x3 ∨ w.extractLsb' 28 4 = 0x4) :
    ∃ mk, decodeWord w = decodeFormatV mk w := by
  obtain hop | hop := h
  · exact ⟨Instr.vrd, by simp [decodeWord, hop]⟩
  · exact ⟨Instr.vwr, by simp [decodeWord, hop]⟩

/-- R61: reserved bits of a format-V word. -/
theorem decodeFormatV_of_reservedBits (mk : Kind → Endian → Instr) {w : Word}
    (h : w.extractLsb' 9 19 ≠ 0 ∨ w.extractLsb' 3 5 ≠ 0) : decodeFormatV mk w = .error .reservedBits :=
  if_neg (by tauto)

/-- R62: K = 7, with or without reserved bits. -/
theorem decodeFormatV_of_reservedKind (mk : Kind → Endian → Instr) {w : Word} (h : w.extractLsb' 0 3 = 7) :
    ∃ r, decodeFormatV mk w = .error r := by
  unfold decodeFormatV
  rw [h]
  split
  · exact ⟨_, rfl⟩
  · exact ⟨_, rfl⟩

/-- Settles O4, clause by clause, by the test of the decoder that the word fails. -/
theorem reservedEncodingsAreIllegal : Obligations.ReservedEncodingsAreIllegal := by
  refine ⟨fun w h => ⟨_, decodeWord_of_reservedOp h⟩, fun s => ?_, fun w hop hres => ?_, fun w hop hres => ?_,
    fun w hop hres => ?_, fun w hop hk => ?_⟩
  · exact execWord_of_error (decodeWord_of_reservedOp (.inl rfl)) s
  · exact ⟨.reservedBits, by simpa [decodeWord, hop] using hres⟩
  · exact ⟨.reservedBits, by simpa [decodeWord, hop] using hres⟩
  · obtain ⟨mk, hmk⟩ := decodeWord_of_formatV hop
    exact ⟨_, hmk.trans (decodeFormatV_of_reservedBits mk hres)⟩
  · obtain ⟨mk, hmk⟩ := decodeWord_of_formatV hop
    rw [hmk]
    exact decodeFormatV_of_reservedKind mk hk

/-- R58: every word is rejected or is legal, and never both. -/
theorem rejected_iff_not_legal (w : Word) : (∃ r, decodeWord w = .error r) ↔ ¬ ∃ i, decodeWord w = .ok i := by
  cases decodeWord w <;> simp

/-- R63: a word is rejected exactly when it matches no row. -/
theorem rejected_iff_no_row (w : Word) :
    (∃ r, decodeWord w = .error r) ↔ ∀ r ∈ opcodeTable, r.spelledBy w = false := by
  rw [rejected_iff_not_legal, decodes_iff_spelled]
  simp

/-- R90: a byte folded into an accumulator that holds the byte itself leaves 0. -/
theorem crcByteValue_self (b : Byte) : crcByteValue (b.setWidth 16) b = 0 := by
  rw [crcByteValue, BitVec.xor_self]
  rfl

/-- R90: no byte leaves every accumulator: one that holds the byte becomes 0, and 1 does not outlast the byte 0. -/
theorem exists_crcByteValue_ne (b : Byte) : ∃ a, crcByteValue a b ≠ a := by
  by_cases hb : b = 0
  · subst hb
    exact ⟨1, by decide⟩
  · refine ⟨b.setWidth 16, fun h => hb ?_⟩
    rw [crcByteValue_self] at h
    have hlow := congrArg (BitVec.setWidth 8) h.symm
    simpa using hlow

/-- R63: no legal command is a no-op. -/
theorem exists_exec_ne (i : Instr) : ∃ s t : State, exec i s = .next t ∧ t ≠ s := by
  induction i using Instr.byFormat with
  | crcInit => exact ⟨{ State.reset with crc := 0 }, _, rfl, by decide⟩
  | crcByte b =>
    obtain ⟨a, ha⟩ := exists_crcByteValue_ne b
    exact ⟨{ State.reset with crc := a }, _, rfl, fun h => ha (congrArg State.crc h)⟩
  | vrd k e => exact ⟨State.reset, _, exec_vrd k e _, fun h => nomatch (congrArg State.rv h : true = false)⟩
  | vwr k e =>
    refine ⟨{ State.reset with data := 0xFFFFFFFF }, _, exec_vwr k e _, ?_⟩
    cases k <;> cases e <;> decide

/-- Settles O5: the rows are the legal words, a rejected word sets ILL, and each command changes some state. -/
theorem illegalExactlyWhenNoRowMatches : Obligations.IllegalExactlyWhenNoRowMatches := by
  intro w
  refine ⟨rejected_iff_no_row w, fun hrows s => ?_, fun i _ => exists_exec_ne i⟩
  obtain ⟨r, hr⟩ := (rejected_iff_no_row w).2 hrows
  exact execWord_of_error hr s

/-- Settles O7, by running the decoder on each word. -/
theorem sampleWordsDecode : Obligations.SampleWordsDecode := by
  refine ⟨?_, ?_, ?_, ?_, ?_, ?_, ?_, ?_, ?_⟩ <;> rfl

/-! ## The count of legal words -/

theorem encode_injective : Function.Injective encode := by
  intro i j h
  exact Except.ok.inj ((decodeWord_eq_ok_iff.2 h).symm.trans (decodeWord_encode j))

/-- R64: every command is listed. -/
theorem mem_allInstrs (i : Instr) : i ∈ allInstrs := by
  simp only [allInstrs, List.mem_append, List.mem_flatMap, List.mem_map, List.mem_range]
  induction i using Instr.byFormat with
  | crcInit => simp
  | crcByte b => exact .inl (.inl (.inr ⟨b.toNat, b.isLt, by simp⟩))
  | vrd k e => exact .inl (.inr ⟨k, mem_allKinds k, by cases e <;> simp⟩)
  | vwr k e => exact .inr ⟨k, mem_allKinds k, by cases e <;> simp⟩

/-- R64: no command is listed twice. -/
theorem allInstrs_nodup : allInstrs.Nodup := by
  have hbytes : ((List.range 256).map fun b => Instr.crcByte (BitVec.ofNat 8 b)).Nodup := by
    refine List.Nodup.map_on ?_ List.nodup_range
    intro a ha b hb h
    have hval := congrArg BitVec.toNat (Instr.crcByte.inj h)
    simpa [Nat.mod_eq_of_lt (List.mem_range.1 ha), Nat.mod_eq_of_lt (List.mem_range.1 hb)] using hval
  simp [allInstrs, List.nodup_append, hbytes, allKinds, Instr.vrd, Instr.vwr]

/-- Settles O6: the legal words are the words of the listed commands, which the encoder keeps apart. -/
theorem thereAre285LegalWords : Obligations.ThereAre285LegalWords := by
  refine ⟨fun w => ?_, allInstrs_nodup.map encode_injective, ?_, ?_, ?_, ?_, ?_⟩
  · simp [decodeWord_eq_ok_iff, mem_allInstrs]
  · simp [allInstrs, allKinds]
  · simp [allInstrs, allKinds, Instr.mnemonic, Instr.vrd, Instr.vwr]
  · simp [allInstrs, allKinds, Instr.mnemonic, Instr.vrd, Instr.vwr, List.filter_map, Function.comp_def]
  · decide
  · decide

/-! ## The assembler -/

theorem encode_vrd_fields (k : Kind) (e : Endian) :
    encode (Instr.vrd k e) = 0x30000000 ||| (e.bit.setWidth 32 <<< 8) ||| k.code.setWidth 32 := by
  cases k <;> cases e <;> rfl

theorem encode_vwr_fields (k : Kind) (e : Endian) :
    encode (Instr.vwr k e) = 0x40000000 ||| (e.bit.setWidth 32 <<< 8) ||| k.code.setWidth 32 := by
  cases k <;> cases e <;> rfl

/-- R65: the text of a command assembles to its word. -/
theorem assembleText_disassemble (i : Instr) : assembleText (disassemble i) = some (encode i) := by
  obtain rfl | ⟨m, x, a, hlex, hparse, hasm⟩ := lex_disassemble i
  · rfl
  · simp [assembleText, hlex, hparse, hasm]

/-- Settles O8: the text by its tokens, each encoding by its fields, and a left-out order kind by kind. -/
theorem assemblerEncodesMnemonics : Obligations.AssemblerEncodesMnemonics := by
  refine ⟨assembleText_disassemble, rfl, fun b hb => ?_, fun b hb => ?_, fun k e => ?_, fun k e => ?_, ?_, ?_⟩
  · obtain ⟨x, rfl⟩ : ∃ x : Byte, x.toNat = b := ⟨.ofNatLT b (Nat.lt_succ_of_le hb), rfl⟩
    rw [assemble_crcByte, Option.map_some, encode_crcByte, BitVec.ofNat_toNat]
  · exact if_neg (by simp [AsmCommand.wellFormed, hb])
  · exact congrArg some (encode_vrd_fields k e)
  · exact congrArg some (encode_vwr_fields k e)
  · intro k
    cases k <;> rfl
  · intro k
    cases k <;> rfl

/-! ## Pseudo-instructions -/

theorem crcBytesEvents_eq (bs : List Byte) :
    crcBytesEvents bs = bs.map fun b => .write 0x00 4 (0x20000000 ||| b.setWidth 32) := by
  simp only [crcBytesEvents, encode_crcByte]
  rfl

/-- R67: bytes are operands that CRC.BYTES and CRC.OVER take. -/
theorem byteLines_wellFormed (bs : List Byte) :
    (ClientLine.crcBytes (bs.map BitVec.toNat)).wellFormed = true ∧
      (ClientLine.crcOver (bs.map BitVec.toNat)).wellFormed = true := by
  have hall : (bs.map BitVec.toNat).all (· ≤ 255) = true := by
    simpa using fun b _ => Nat.le_of_lt_succ b.isLt
  exact ⟨hall, hall⟩

theorem map_ofNat_map_toNat (bs : List Byte) : (bs.map BitVec.toNat).map (BitVec.ofNat 8) = bs := by
  simp [Function.comp_def]

/-- R67: `C` and a command written to CMD are the one write of its word. -/
theorem expand_of_assemble {a : AsmCommand} {i : Instr} (c : Word) (h : assemble a = some i) :
    expand c (.command a) = some [commandEvent (encode i)] ∧
      expand c (.writeCommand a) = some [commandEvent (encode i)] := by
  simp [expand, ClientLine.wellFormed, wellFormed_of_assemble h, commandEvents, h]

/-- Settles O9; the expansions without bytes or a command operand compute. -/
theorem pseudoInstructionsExpand : Obligations.PseudoInstructionsExpand := by
  refine ⟨fun c a i h => expand_of_assemble c h, fun c bs => ?_, fun c bs => ?_, fun _ _ _ _ _ => ⟨rfl, rfl, rfl, rfl⟩,
    fun _ _ => rfl, fun _ => rfl⟩
  · rw [expand, if_pos (byteLines_wellFormed bs).1, map_ofNat_map_toNat, crcBytesEvents_eq]
  · rw [expand, if_pos (byteLines_wellFormed bs).2, map_ofNat_map_toNat, crcOverEvents, crcBytesEvents_eq]
    rfl

end Sys2Proof.Machine
end

section
/-! PROOFS of the family 40_value_read: the read commands, the agreements between them, the round trip through the
window, the independence of the value codec and the CRC unit, and the value of a binary32 pattern. -/

namespace Sys2Proof.Machine

/-! ## What a read command answers -/

/-- R68: the next state of a VRD, written out, once the value it puts into RESULT is known. -/
theorem exec_vrd_of_value {k : Kind} {e : Endian} {s : State} {v : Word} (h : readValue k e s = v) :
    exec (Instr.vrd k e) s = .next { s with result := v, rv := true, kind := k.code } := by
  rw [exec_vrd, h]
  rfl

/-- The two-byte window value of known bytes, in both orders (R68). -/
theorem winVal2_of_bytes {s : State} {b0 b1 : Byte} (h0 : s.win0 = b0) (h1 : s.win1 = b1) :
    winVal2 .little s = b1 ++ b0 ∧ winVal2 .big s = b0 ++ b1 := by
  subst h0 h1
  exact ⟨rfl, rfl⟩

/-- The four-byte window value of known bytes, in both orders (R68). -/
theorem winVal4_of_bytes {s : State} {b0 b1 b2 b3 : Byte} (h0 : s.win0 = b0) (h1 : s.win1 = b1) (h2 : s.win2 = b2)
    (h3 : s.win3 = b3) :
    winVal4 .little s = b3 ++ b2 ++ b1 ++ b0 ∧ winVal4 .big s = b0 ++ b1 ++ b2 ++ b3 := by
  subst h0 h1 h2 h3
  exact ⟨rfl, rfl⟩

/-! ## What a read command depends on, and what it leaves -/

/-- R68: `WinVal(1, E)` looks at WIN0 alone. -/
theorem winVal1_congr {s s' : State} (h : sameWindow 1 s s') (e : Endian) : winVal1 e s' = winVal1 e s :=
  (h 0 (by decide)).symm

/-- R68: `WinVal(2, E)` looks at WIN0 and WIN1 alone. -/
theorem winVal2_congr {s s' : State} (h : sameWindow 2 s s') (e : Endian) : winVal2 e s' = winVal2 e s := by
  have h0 : s.win0 = s'.win0 := h 0 (by decide)
  have h1 : s.win1 = s'.win1 := h 1 (by decide)
  cases e <;> simp only [winVal2, h0, h1]

/-- R68: `WinVal(4, E)` looks at the window alone. -/
theorem winVal4_congr {s s' : State} (h : sameWindow 4 s s') (e : Endian) : winVal4 e s' = winVal4 e s := by
  have h0 : s.win0 = s'.win0 := h 0 (by decide)
  have h1 : s.win1 = s'.win1 := h 1 (by decide)
  have h2 : s.win2 = s'.win2 := h 2 (by decide)
  have h3 : s.win3 = s'.win3 := h 3 (by decide)
  cases e <;> simp only [winVal4, h0, h1, h2, h3]

/-- R68: the value a VRD decodes depends on the window bytes below the width alone. -/
theorem readValue_congr {k : Kind} {s s' : State} (h : sameWindow k.width s s') (e : Endian) :
    readValue k e s' = readValue k e s := by
  cases k with
  | uint8 => exact congrArg zext32 (winVal1_congr h e)
  | uint16 => exact congrArg zext32 (winVal2_congr h e)
  | int16 => exact congrArg sext32 (winVal2_congr h e)
  | uint32 => exact winVal4_congr h e
  | float32 => exact winVal4_congr h e
  | enum8 => exact congrArg zext32 (winVal1_congr h e)
  | bitfield8 => exact congrArg zext32 (winVal1_congr h e)

/-- R32: two states read alike at an offset where they read alike as a named slot. -/
theorem readAt_congr {off : BitVec 6} {s t : State}
    (h : ∀ sl, off = slotOffset sl → readSlot (some sl) t = readSlot (some sl) s) :
    readAt off t = readAt off s := by
  unfold readAt
  cases hsl : slotAt off with
  | none => rfl
  | some sl => exact h sl (slotOffset_of_slotAt hsl)

/-- R68: the end of a read command shows in the slots of RESULT and STATUS alone. -/
theorem readAt_completeRead (k : Kind) (v : Word) (s : State) {off : BitVec 6} (hresult : off ≠ slotOffset .result)
    (hstatus : off ≠ slotOffset .status) : readAt off (completeRead k v s) = readAt off s := by
  refine readAt_congr fun sl hoff => ?_
  cases sl with
  | result => exact absurd hoff hresult
  | status => exact absurd hoff hstatus
  | _ => rfl

/-- Settles O10: the value is `readValue`, which looks at the low window bytes alone. -/
theorem vrdCommonShape : Obligations.VrdCommonShape := by
  refine ⟨fun s => ⟨rfl, rfl, rfl, rfl, rfl, rfl⟩, fun k e s => ⟨readValue k e s, exec_vrd k e s, ?_, ?_⟩⟩
  · intro s' h
    exact exec_vrd_of_value (readValue_congr h e)
  · intro t h off hresult hstatus
    rw [exec_vrd] at h
    cases h
    exact readAt_completeRead k _ s hresult hstatus

/-! ## Extension of a 16-bit number -/

/-- R10: zero extension keeps the number. -/
theorem zext32_toNat {n : Nat} (hn : n ≤ 32) (v : BitVec n) : (zext32 v).toNat = v.toNat :=
  BitVec.toNat_setWidth_of_le hn

/-- R71: sign extension as a number; bit 15 decides. -/
theorem sext32_toInt_eq_ite (v : Half) :
    (sext32 v).toInt = if v.getLsbD 15 then (v.toNat : Int) - 0x10000 else v.toNat := by
  rw [sext32_toInt, BitVec.toInt_eq_msb_cond, BitVec.msb_eq_getLsbD_last]
  rfl

/-- R77: sign extension keeps the low half. -/
theorem lowHalf_sext32 (v : Half) : lowHalf (sext32 v) = v := by
  ext i hi
  have hi' : i < 32 := by omega
  simp [lowHalf, sext32, BitVec.getElem_signExtend, hi, hi']

/-- R77: zero extension reads a 16-bit number as unsigned. -/
theorem zext32_toInt (v : Half) : (zext32 v).toInt = v.toNat := by
  have hn := zext32_toNat (by decide) v
  rw [BitVec.toInt_eq_toNat_of_lt (by omega), hn]

/-- R77: the two extensions of a 16-bit number differ exactly when its top bit is 1. -/
theorem zext32_ne_sext32_iff (v : Half) : zext32 v ≠ sext32 v ↔ v.getLsbD 15 = true := by
  rw [ne_eq, ← BitVec.toInt_inj, zext32_toInt, sext32_toInt_eq_ite]
  split
  next hbit => exact iff_of_true (by omega) hbit
  next hbit => exact iff_of_false (not_not_intro rfl) hbit

/-! ## The read commands, kind by kind -/

/-- R71: VRD.int16 of a known two-byte window value. -/
theorem exec_vrdInt16_of_winVal2 {e : Endian} {s : State} {u : Half} (h : winVal2 e s = u) :
    exec (.vrdInt16 e) s = .next { s with result := sext32 u, rv := true, kind := 2 } :=
  exec_vrd_of_value (k := .int16) (congrArg sext32 h)

/-- Settles O13: the value is the window's, sign-extended; the corner cases compute. -/
theorem vrdInt16Rule : Obligations.VrdInt16Rule := by
  refine ⟨fun e s => ⟨sext32 (winVal2 e s), rfl, rfl, sext32_toInt_eq_ite _⟩, rfl, rfl, rfl,
    fun _ _ h => exec_vrdInt16_of_winVal2 h, fun _ _ h => exec_vrdInt16_of_winVal2 h,
    fun _ _ h => exec_vrdInt16_of_winVal2 h, fun s h0 h1 => ?_⟩
  obtain ⟨hlittle, hbig⟩ := winVal2_of_bytes h0 h1
  exact ⟨exec_vrdInt16_of_winVal2 hlittle, exec_vrdInt16_of_winVal2 hbig⟩

/-- Settles O11: the value is WIN0, zero-extended. -/
theorem vrdUint8Rule : Obligations.VrdUint8Rule :=
  ⟨fun _ _ => rfl, rfl, rfl, rfl, fun _ _ h => exec_vrd_of_value (k := .uint8) (congrArg zext32 h),
    fun _ _ h => exec_vrd_of_value (k := .uint8) (congrArg zext32 h)⟩

/-- R70: VRD.uint16 of a known two-byte window value. -/
theorem exec_vrdUint16_of_winVal2 {e : Endian} {s : State} {u : Half} (h : winVal2 e s = u) :
    exec (.vrdUint16 e) s = .next { s with result := zext32 u, rv := true, kind := 1 } :=
  exec_vrd_of_value (k := .uint16) (congrArg zext32 h)

/-- Settles O12: the value is the two-byte window value, zero-extended; the corner cases compute. -/
theorem vrdUint16Rule : Obligations.VrdUint16Rule := by
  refine ⟨fun _ => rfl, fun _ => rfl, rfl, rfl, rfl, fun s h0 h1 => ?_, fun e s h0 h1 => ?_⟩
  · obtain ⟨hlittle, hbig⟩ := winVal2_of_bytes h0 h1
    exact ⟨exec_vrdUint16_of_winVal2 hbig, exec_vrdUint16_of_winVal2 hlittle⟩
  · obtain ⟨hlittle, hbig⟩ := winVal2_of_bytes h0 h1
    cases e with
    | little => exact exec_vrdUint16_of_winVal2 hlittle
    | big => exact exec_vrdUint16_of_winVal2 hbig

/-- Settles O14: the value is the four-byte window value. -/
theorem vrdUint32Rule : Obligations.VrdUint32Rule := by
  refine ⟨fun _ => rfl, fun _ => rfl, rfl, rfl, rfl, ?_⟩
  intro s h0 h1 h2 h3
  obtain ⟨hlittle, hbig⟩ := winVal4_of_bytes h0 h1 h2 h3
  exact ⟨exec_vrd_of_value (k := .uint32) hlittle, exec_vrd_of_value (k := .uint32) hbig⟩

/-- Settles O16: the value is WIN0, zero-extended. -/
theorem vrdEnum8Rule : Obligations.VrdEnum8Rule :=
  ⟨fun _ _ => rfl, rfl, rfl, rfl, fun _ _ h => exec_vrd_of_value (k := .enum8) (congrArg zext32 h)⟩

/-- R75: a zero-extended byte, bit by bit. -/
theorem zext32_byte_bits (b : Byte) :
    (∀ i < 8, (zext32 b).getLsbD i = b.getLsbD i) ∧ (zext32 b).extractLsb' 8 24 = 0 := by
  constructor
  · intro i hi
    simp [zext32, show i < 32 by omega]
  · ext i hi
    simp [zext32]

/-- Settles O17: the value is WIN0, zero-extended, read bit by bit. -/
theorem vrdBitfield8Rule : Obligations.VrdBitfield8Rule :=
  ⟨fun _ s => ⟨zext32 s.win0, rfl, rfl, zext32_byte_bits s.win0⟩, rfl, rfl, rfl,
    fun _ h => exec_vrd_of_value (k := .bitfield8) (congrArg zext32 h)⟩

/-- Settles O18: the kinds that agree have the same value, and int16 and uint16 are the two extensions of one. -/
theorem readKindsAgree : Obligations.ReadKindsAgree := by
  intro e s
  refine ⟨⟨winVal4 e s, rfl, rfl⟩, ⟨zext32 (winVal1 e s), rfl, rfl, rfl⟩,
    ⟨zext32 (winVal2 e s), sext32 (winVal2 e s), rfl, rfl, ?_, zext32_ne_sext32_iff _⟩⟩
  exact (lowHalf_zext32 _).trans (lowHalf_sext32 _).symm

/-! ## Reading back what was written -/

/-- R68, R78: `WinVal(1, E)` is what `SetWin(1, E, v)` put in. -/
@[simp] theorem winVal1_setWin1 (e : Endian) (v : Byte) (s : State) : winVal1 e (setWin1 e v s) = v := rfl

/-- R68, R78: the two bytes come back in the order they went in. -/
@[simp] theorem winVal2_setWin2 (e : Endian) (v : Half) (s : State) : winVal2 e (setWin2 e v s) = v := by
  cases e <;> exact halfHigh_append_halfLow v

/-- The four bytes of a word. -/
theorem append_bytes (v : Word) : byteOf v 3 ++ byteOf v 2 ++ byteOf v 1 ++ byteOf v 0 = v := by
  have h321 : byteOf v 3 ++ byteOf v 2 ++ byteOf v 1 = v.extractLsb' 8 24 := by
    rw [byteOf_append_byteOf v 2]
    exact BitVec.extractLsb'_append_extractLsb'_eq_extractLsb' rfl
  rw [h321]
  exact (BitVec.extractLsb'_append_extractLsb'_eq_extractLsb' rfl).trans BitVec.extractLsb'_eq_self

/-- R68, R78: the four bytes come back in the order they went in. -/
@[simp] theorem winVal4_setWin4 (e : Endian) (v : Word) (s : State) : winVal4 e (setWin4 e v s) = v := by
  cases e <;> exact append_bytes v

/-- What a value read of a kind gives for the number `d` written (R88): the low bits of `d` as the kind reads them. -/
def lowBitsRead (k : Kind) (d : Word) : Word :=
  match k with
  | .uint8 => zext32 (byteOf d 0)
  | .uint16 => zext32 (lowHalf d)
  | .int16 => sext32 (lowHalf d)
  | .uint32 => d
  | .float32 => d
  | .enum8 => zext32 (byteOf d 0)
  | .bitfield8 => zext32 (byteOf d 0)

/-- R88: VRD of a kind and order undoes VWR of the same, up to the bits the kind has no room for. -/
theorem readValue_writeWindow (k : Kind) (e : Endian) (s : State) :
    readValue k e (writeWindow k e s) = lowBitsRead k s.data := by
  cases k <;> simp [readValue, writeWindow, lowBitsRead]

/-- R10: the low bits of a word, zero-extended, are its number modulo their range. -/
theorem zext32_lowBits_toNat {n : Nat} (hn : n ≤ 32) (d : Word) :
    (zext32 (d.extractLsb' 0 n)).toNat = d.toNat % 2 ^ n := by
  rw [zext32_toNat hn, BitVec.extractLsb'_toNat, Nat.shiftRight_zero]

/-- R88: of every kind but int16 the number read back is DATA modulo the range of the kind's width. -/
theorem lowBitsRead_toNat {k : Kind} (hk : k ≠ .int16) (d : Word) :
    (lowBitsRead k d).toNat = d.toNat % 2 ^ (8 * k.width) := by
  cases k with
  | int16 => exact absurd rfl hk
  | uint16 => exact zext32_lowBits_toNat (by decide) d
  | uint32 => exact (Nat.mod_eq_of_lt d.isLt).symm
  | float32 => exact (Nat.mod_eq_of_lt d.isLt).symm
  | uint8 => exact zext32_lowBits_toNat (by decide) d
  | enum8 => exact zext32_lowBits_toNat (by decide) d
  | bitfield8 => exact zext32_lowBits_toNat (by decide) d

theorem lowHalf_eq_setWidth (d : Word) : lowHalf d = d.setWidth 16 :=
  (BitVec.setWidth_eq_extractLsb' (by decide)).symm

/-- R88: a number in int16's range is the sign extension of its low half. -/
theorem sext32_lowHalf_of_range {d : Word} (hlow : -2 ^ 15 ≤ d.toInt) (hhigh : d.toInt < 2 ^ 15) :
    sext32 (lowHalf d) = d := by
  apply BitVec.eq_of_toInt_eq
  calc (sext32 (lowHalf d)).toInt
      = (d.toNat : Int).bmod (2 ^ 16) := by rw [sext32_toInt, lowHalf_eq_setWidth, BitVec.toInt_setWidth]
    _ = d.toInt.bmod (2 ^ 16) := by rw [BitVec.toInt_eq_toNat_bmod, Int.bmod_bmod_of_dvd (by decide)]
    _ = d.toInt := Int.bmod_eq_of_le (by omega) (by omega)

theorem width_le_four (k : Kind) : k.width ≤ 4 := by
  cases k <;> decide

/-- Two windows that agree on some bytes agree on fewer. -/
theorem sameWindow_mono {m n : Nat} (hmn : m ≤ n) {s s' : State} (h : sameWindow n s s') : sameWindow m s s' :=
  fun i hi => h i (hi.trans_le hmn)

/-- Settles O30: the read of the window that the write left gives `lowBitsRead` of DATA. -/
theorem writeThenReadRoundTrip : Obligations.WriteThenReadRoundTrip := by
  intro k e s t u hwrite hwin
  rw [exec_vwr] at hwrite
  cases hwrite
  have hvalue : readValue k e u = lowBitsRead k s.data :=
    (readValue_congr (sameWindow_mono (width_le_four k) hwin) e).trans (readValue_writeWindow k e s)
  refine ⟨_, exec_vrd_of_value hvalue, fun hk => lowBitsRead_toNat hk s.data, ?_, ?_, ?_⟩
  · rintro rfl
    exact congrArg sext32 (lowHalf_eq_setWidth s.data)
  · intro hk hfits
    exact BitVec.eq_of_toNat_eq ((lowBitsRead_toNat hk s.data).trans (Nat.mod_eq_of_lt hfits))
  · rintro rfl hlow hhigh
    exact sext32_lowHalf_of_range hlow hhigh

/-! ## The value codec and the CRC unit -/

/-- R93: what a VWR does to the window does not depend on CRC. -/
theorem writeWindow_withCrc (k : Kind) (e : Endian) (s : State) (c : Half) :
    writeWindow k e { s with crc := c } = { writeWindow k e s with crc := c } := by
  cases k with
  | uint8 => rfl
  | enum8 => rfl
  | bitfield8 => rfl
  | uint16 => cases e <;> rfl
  | int16 => cases e <;> rfl
  | uint32 => cases e <;> rfl
  | float32 => cases e <;> rfl

/-- R93: a value command gives the same next state whatever CRC is, up to CRC itself. -/
theorem exec_withCrc {i : Instr} (hi : commandGroup i ≠ .crc) {s t : State} (h : exec i s = .next t) (c : Half) :
    exec i { s with crc := c } = .next { t with crc := c } := by
  induction i using Instr.byFormat with
  | crcInit => exact absurd rfl hi
  | crcByte b => exact absurd rfl hi
  | vrd k e =>
    rw [exec_vrd] at h
    cases h
    exact exec_vrd_of_value (readValue_congr (fun _ _ => rfl) e)
  | vwr k e =>
    rw [exec_vwr] at h
    cases h
    rw [exec_vwr, writeWindow_withCrc]

/-- R93: a CRC command puts a number into CRC that depends on CRC alone. -/
theorem exec_crc_of_crc_eq {i : Instr} (hi : commandGroup i = .crc) {s s' : State} (h : s.crc = s'.crc) :
    ∃ c, exec i s = .next { s with crc := c } ∧ exec i s' = .next { s' with crc := c } := by
  cases i with
  | crcInit => exact ⟨crcInitial, rfl, rfl⟩
  | crcByte b =>
    refine ⟨crcByteValue s.crc b, rfl, ?_⟩
    rw [h]
    rfl
  | _ => cases hi

/-- R32: CRC shows in its own slot alone. -/
theorem readAt_withCrc (s : State) (c : Half) {off : BitVec 6} (hoff : off ≠ slotOffset .crc) :
    readAt off { s with crc := c } = readAt off s := by
  refine readAt_congr fun sl hsl => ?_
  cases sl with
  | crc => exact absurd hsl hoff
  | _ => rfl

/-- Settles O37, from what each group of commands reads and writes. -/
theorem crcAndValueUnitsAreIndependent : Obligations.CrcAndValueUnitsAreIndependent := by
  refine ⟨fun i s c hi => ?_, fun i s s' hi h => exec_crc_of_crc_eq hi h, fun i s t hi h off hoff => ?_⟩
  · obtain ⟨t, ht⟩ := exec_answers i s
    exact ⟨t, ht, exec_keeps_crc hi ht, exec_withCrc hi ht c⟩
  · obtain ⟨c, hc, -⟩ := exec_crc_of_crc_eq hi (rfl : s.crc = s.crc)
    rw [h] at hc
    cases hc
    exact readAt_withCrc s c hoff

/-! ## The value of a binary32 pattern -/

section Float32Fields

variable (sign : BitVec 1) (e : BitVec 8) (f : BitVec 23)

/-- R76: the sign of a pattern put together from its fields. -/
@[simp] theorem float32Sign_fields : float32Sign (sign ++ e ++ f) = (sign = 1 : Bool) := by
  have hbit : sign.getLsbD 0 = (sign = 1 : Bool) := by
    revert sign
    decide
  rw [float32Sign, BitVec.getLsbD_append, if_neg (by decide), BitVec.getLsbD_append, if_neg (by decide), hbit]

/-- R76: the exponent of a pattern put together from its fields. -/
@[simp] theorem float32Exponent_fields : float32Exponent (sign ++ e ++ f) = e.toNat := by
  rw [float32Exponent, BitVec.extractLsb'_append_eq_of_le (by decide), BitVec.extractLsb'_append_eq_right]

/-- R76: the fraction of a pattern put together from its fields. -/
@[simp] theorem float32Fraction_fields : float32Fraction (sign ++ e ++ f) = f.toNat := by
  rw [float32Fraction, BitVec.extractLsb'_append_eq_right]

end Float32Fields

/-- Settles O21: the three fields decide the case. -/
theorem float32ValueByFields : Obligations.Float32ValueByFields := by
  intro sign e f
  refine ⟨?_, ?_, ?_, ?_⟩
  · intro he hf
    have hf' : f.toNat ≠ 0 := fun h => hf (BitVec.eq_of_toNat_eq h)
    simp [float32Value, he, hf']
  · rintro rfl rfl
    simp [float32Value]
  · intro h1 h2
    have h0 : e.toNat ≠ 0 := by omega
    have hFF : e.toNat ≠ 0xFF := by omega
    simp [float32Value, h0, hFF]
  · rintro rfl
    simp [float32Value]

/-- Settles O15: the value is the four-byte window value; the example's pattern is the normal one of exponent 127 and
fraction 0. -/
theorem vrdFloat32Rule : Obligations.VrdFloat32Rule := by
  refine ⟨fun _ => rfl, fun _ => rfl, rfl, rfl, rfl, ?_, ?_⟩
  · intro s h0 h1 h2 h3
    exact exec_vrd_of_value (k := .float32) (winVal4_of_bytes h0 h1 h2 h3).1
  · obtain ⟨-, -, hnormal, -⟩ := float32ValueByFields 0 127 0
    have hone := hnormal (by decide) (by decide)
    simpa using hone

end Sys2Proof.Machine
end

section
/-! PROOFS of the family 41_value_write: the write commands, the window bytes they write, what they depend on and what
they leave, and the agreements between kinds of one width. -/

namespace Sys2Proof.Machine

/-! ## What a write command depends on, and what it leaves -/

@[simp] theorem commandGroup_vwr (k : Kind) (e : Endian) : commandGroup (Instr.vwr k e) = .write := by
  cases k <;> rfl

/-- R78: a VWR changes window bytes alone. -/
theorem exists_writeWindow_eq (k : Kind) (e : Endian) (s : State) : ∃ b0 b1 b2 b3,
    writeWindow k e s = { s with win0 := b0, win1 := b1, win2 := b2, win3 := b3 } := by
  have hg := commandGroup_vwr k e
  rcases exec_cases (Instr.vwr k e) s with ⟨hcrc, -⟩ | ⟨hread, -⟩ | ⟨-, b0, b1, b2, b3, h⟩
  · simp [hg] at hcrc
  · simp [hg] at hread
  · rw [exec_vwr] at h
    exact ⟨b0, b1, b2, b3, Host.Outcome.next.inj h⟩

/-- R78: `SetWin(1, E, v)` puts v's byte into WIN0 whatever the state. -/
theorem sameWindow_setWin1 {v v' : Byte} (h : v = v') (e : Endian) (s s' : State) :
    sameWindow 1 (setWin1 e v s) (setWin1 e v' s') := by
  subst h
  intro i hi
  obtain rfl : i = 0 := by omega
  rfl

/-- R78: `SetWin(2, E, v)` puts v's bytes into WIN0 and WIN1 whatever the state. -/
theorem sameWindow_setWin2 {v v' : Half} (h : v = v') (e : Endian) (s s' : State) :
    sameWindow 2 (setWin2 e v s) (setWin2 e v' s') := by
  subst h
  intro i hi
  obtain rfl | rfl : i = 0 ∨ i = 1 := by omega
  · cases e <;> rfl
  · cases e <;> rfl

/-- R78: `SetWin(4, E, v)` puts v's bytes into the window whatever the state. -/
theorem sameWindow_setWin4 {v v' : Word} (h : v = v') (e : Endian) (s s' : State) :
    sameWindow 4 (setWin4 e v s) (setWin4 e v' s') := by
  subst h
  intro i _
  cases e <;> fin_cases i <;> rfl

/-- R86: the low n bits of a word are its number modulo 2^n. -/
theorem lowBits_congr {d d' : Word} {n : Nat} (h : d.toNat % 2 ^ n = d'.toNat % 2 ^ n) :
    d.extractLsb' 0 n = d'.extractLsb' 0 n :=
  BitVec.eq_of_toNat_eq (by simpa only [BitVec.extractLsb'_toNat, Nat.shiftRight_zero] using h)

/-- R78, R86: the bytes a VWR writes depend on DATA modulo 2^(8w) alone. -/
theorem writeWindow_congr {k : Kind} {s s' : State}
    (h : s'.data.toNat % 2 ^ (8 * k.width) = s.data.toNat % 2 ^ (8 * k.width)) (e : Endian) :
    sameWindow k.width (writeWindow k e s') (writeWindow k e s) := by
  have hword (hw : k.width = 4) : s'.data = s.data := by
    rw [hw, Nat.mod_eq_of_lt s'.data.isLt, Nat.mod_eq_of_lt s.data.isLt] at h
    exact BitVec.eq_of_toNat_eq h
  cases k with
  | uint8 => exact sameWindow_setWin1 (lowBits_congr h) e s' s
  | uint16 => exact sameWindow_setWin2 (lowBits_congr h) e s' s
  | int16 => exact sameWindow_setWin2 (lowBits_congr h) e s' s
  | uint32 => exact sameWindow_setWin4 (hword rfl) e s' s
  | float32 => exact sameWindow_setWin4 (hword rfl) e s' s
  | enum8 => exact sameWindow_setWin1 (lowBits_congr h) e s' s
  | bitfield8 => exact sameWindow_setWin1 (lowBits_congr h) e s' s

/-- R25, R32: the slot of a window byte reads as that byte. -/
theorem readSlot_winSlot (i : Fin 4) (s : State) : readSlot (some (winSlot i)) s = zext32 (winByte s i) := by
  fin_cases i <;> rfl

/-- R32: the window shows in its own slots alone. -/
theorem readSlot_withWindow {sl : Slot} (h : ∀ i, sl ≠ winSlot i) (s : State) (b0 b1 b2 b3 : Byte) :
    readSlot (some sl) { s with win0 := b0, win1 := b1, win2 := b2, win3 := b3 } = readSlot (some sl) s := by
  cases sl with
  | win0 => exact absurd rfl (h 0)
  | win1 => exact absurd rfl (h 1)
  | win2 => exact absurd rfl (h 2)
  | win3 => exact absurd rfl (h 3)
  | _ => rfl

/-- R78: a VWR of width w shows in the slots of WIN0 to WIN(w-1) alone. -/
theorem readAt_writeWindow (k : Kind) (e : Endian) (s : State) {off : BitVec 6}
    (hoff : ∀ i : Fin 4, i.val < k.width → off.toNat ≠ 0x14 + 4 * i.val) :
    readAt off (writeWindow k e s) = readAt off s := by
  refine readAt_congr fun sl hsl => ?_
  by_cases hwin : ∃ i, sl = winSlot i
  · obtain ⟨i, rfl⟩ := hwin
    have hi : k.width ≤ i.val := by
      by_contra hlt
      exact hoff i (not_le.1 hlt) (by rw [hsl, slotOffset_winSlot])
    rw [readSlot_winSlot, readSlot_winSlot, writeWindow_winByte k e s hi]
  · obtain ⟨b0, b1, b2, b3, hw⟩ := exists_writeWindow_eq k e s
    rw [hw]
    exact readSlot_withWindow (not_exists.1 hwin) s b0 b1 b2 b3

/-- Settles O22: the next state is `writeWindow`, which looks at the low bits of DATA alone. -/
theorem vwrCommonShape : Obligations.VwrCommonShape := by
  refine ⟨fun s b h v => ⟨rfl, rfl, rfl, rfl, rfl, rfl⟩,
    fun e s b h v => ⟨winVal1_setWin1 e b s, winVal2_setWin2 e h s, winVal4_setWin4 e v s⟩, fun k e s => ?_⟩
  obtain ⟨b0, b1, b2, b3, hw⟩ := exists_writeWindow_eq k e s
  exact ⟨b0, b1, b2, b3, writeWindow k e s, hw, exec_vwr k e s, fun i hi => writeWindow_winByte k e s hi,
    fun s' h => ⟨_, exec_vwr k e s', writeWindow_congr h e⟩, fun off hoff => readAt_writeWindow k e s hoff⟩

/-! ## The write commands of each width, for a known DATA -/

/-- R80: the bytes of the low half of a word. -/
theorem halfLow_lowHalf (d : Word) : halfLow (lowHalf d) = d.extractLsb' 0 8 :=
  BitVec.extractLsb'_extractLsb'_of_le (by decide)

theorem halfHigh_lowHalf (d : Word) : halfHigh (lowHalf d) = d.extractLsb' 8 8 :=
  BitVec.extractLsb'_extractLsb'_of_le (by decide)

section KnownData

variable {s : State} {d : Word} (h : s.data = d)
include h

theorem exec_vwrUint8_of_data (e : Endian) :
    exec (.vwrUint8 e) s = .next { s with win0 := d.extractLsb' 0 8 } := by
  subst h
  rfl

theorem exec_vwrUint16_little_of_data :
    exec (.vwrUint16 .little) s = .next { s with win0 := d.extractLsb' 0 8, win1 := d.extractLsb' 8 8 } := by
  rw [← halfLow_lowHalf, ← halfHigh_lowHalf, ← h]
  rfl

theorem exec_vwrUint16_big_of_data :
    exec (.vwrUint16 .big) s = .next { s with win0 := d.extractLsb' 8 8, win1 := d.extractLsb' 0 8 } := by
  rw [← halfLow_lowHalf, ← halfHigh_lowHalf, ← h]
  rfl

theorem exec_vwrUint32_little_of_data : exec (.vwrUint32 .little) s = .next { s with
    win0 := d.extractLsb' 0 8, win1 := d.extractLsb' 8 8, win2 := d.extractLsb' 16 8, win3 := d.extractLsb' 24 8 } := by
  subst h
  rfl

theorem exec_vwrUint32_big_of_data : exec (.vwrUint32 .big) s = .next { s with
    win0 := d.extractLsb' 24 8, win1 := d.extractLsb' 16 8, win2 := d.extractLsb' 8 8, win3 := d.extractLsb' 0 8 } := by
  subst h
  rfl

/-- R80: where the two low bytes of DATA are equal, the order does not matter. -/
theorem exec_vwrUint16_of_equal_bytes {b : Byte} (h0 : d.extractLsb' 0 8 = b) (h1 : d.extractLsb' 8 8 = b)
    (e : Endian) : exec (.vwrUint16 e) s = .next { s with win0 := b, win1 := b } := by
  cases e with
  | little => rw [exec_vwrUint16_little_of_data h, h0, h1]
  | big => rw [exec_vwrUint16_big_of_data h, h0, h1]

end KnownData

/-! ## Kinds of one width write alike -/

/-- R81: "VWR.int16 and VWR.uint16 write identical bytes for the same DATA and E." -/
theorem exec_vwrInt16 (e : Endian) (s : State) : exec (.vwrInt16 e) s = exec (.vwrUint16 e) s := rfl

theorem exec_vwrFloat32 (e : Endian) (s : State) : exec (.vwrFloat32 e) s = exec (.vwrUint32 e) s := rfl

/-- R84: "The effect is identical to VWR.uint8." -/
theorem exec_vwrEnum8 (e : Endian) (s : State) : exec (.vwrEnum8 e) s = exec (.vwrUint8 e) s := rfl

/-- R85: "The effect is identical to VWR.uint8." -/
theorem exec_vwrBitfield8 (e : Endian) (s : State) : exec (.vwrBitfield8 e) s = exec (.vwrUint8 e) s := rfl

/-! ## The write commands, kind by kind -/

/-- R81: the low half of a two's-complement number is that number modulo 2^16. -/
theorem lowHalf_toNat_eq_toInt_emod (d : Word) : ((lowHalf d).toNat : Int) = d.toInt % 2 ^ 16 := by
  rw [lowHalf_eq_setWidth, BitVec.toNat_setWidth, BitVec.toInt_eq_toNat_cond]
  split <;> omega

/-- Settles O25: the bytes are those of VWR.uint16, and read back they are DATA's low half. -/
theorem vwrInt16Rule : Obligations.VwrInt16Rule := by
  refine ⟨fun s => ?_, fun s => ?_, fun e s t h => ?_, exec_vwrInt16, rfl, rfl, fun e s h => ?_, fun s h => ?_,
    fun s h => ?_⟩
  · exact (exec_vwrInt16 .little s).trans (exec_vwrUint16_little_of_data rfl)
  · exact (exec_vwrInt16 .big s).trans (exec_vwrUint16_big_of_data rfl)
  · cases (exec_vwr .int16 e s).symm.trans h
    rw [writeWindow, winVal2_setWin2, lowHalf_toNat_eq_toInt_emod]
  · exact (exec_vwrInt16 e s).trans (exec_vwrUint16_of_equal_bytes h rfl rfl e)
  · simp only [exec_vwrInt16]
    rcases h with h | h <;> exact ⟨exec_vwrUint16_big_of_data h, exec_vwrUint16_little_of_data h⟩
  · exact (exec_vwrInt16 .little s).trans (exec_vwrUint16_little_of_data h)

/-- Settles O23: WIN0 takes the low byte of DATA. -/
theorem vwrUint8Rule : Obligations.VwrUint8Rule :=
  ⟨fun e _ => exec_vwrUint8_of_data rfl e, rfl, rfl, fun e _ h => exec_vwrUint8_of_data h e,
    fun e _ h => exec_vwrUint8_of_data h e⟩

/-- Settles O24: WIN0 and WIN1 take the two low bytes of DATA; in the corner case they are equal. -/
theorem vwrUint16Rule : Obligations.VwrUint16Rule :=
  ⟨fun _ => exec_vwrUint16_little_of_data rfl, fun _ => exec_vwrUint16_big_of_data rfl, rfl, rfl,
    fun e _ h => exec_vwrUint16_of_equal_bytes h rfl rfl e,
    fun _ h => ⟨exec_vwrUint16_big_of_data h, exec_vwrUint16_little_of_data h⟩⟩

/-- Settles O26: the window takes the four bytes of DATA. -/
theorem vwrUint32Rule : Obligations.VwrUint32Rule :=
  ⟨fun _ => exec_vwrUint32_little_of_data rfl, fun _ => exec_vwrUint32_big_of_data rfl, rfl, rfl,
    fun _ h => exec_vwrUint32_little_of_data h⟩

/-- Settles O27: the bytes are those of VWR.uint32, so no bit of the pattern changes. -/
theorem vwrFloat32Rule : Obligations.VwrFloat32Rule :=
  ⟨fun s => (exec_vwrFloat32 .little s).trans (exec_vwrUint32_little_of_data rfl),
    fun s => (exec_vwrFloat32 .big s).trans (exec_vwrUint32_big_of_data rfl), rfl, rfl,
    fun s h => (exec_vwrFloat32 .big s).trans (exec_vwrUint32_big_of_data h)⟩

/-- Settles O28: the effect is that of VWR.uint8. -/
theorem vwrEnum8Rule : Obligations.VwrEnum8Rule :=
  ⟨fun e s => (exec_vwrEnum8 e s).trans (exec_vwrUint8_of_data rfl e), exec_vwrEnum8, rfl, rfl,
    fun e s h => (exec_vwrEnum8 e s).trans (exec_vwrUint8_of_data h e)⟩

/-- R10: the bits of the low byte of a word. -/
theorem lowByte_getLsbD (d : Word) {i : Nat} (hi : i < 8) : (d.extractLsb' 0 8).getLsbD i = d.getLsbD i := by
  simp [hi]

/-- Settles O29: the effect is that of VWR.uint8, read bit by bit. -/
theorem vwrBitfield8Rule : Obligations.VwrBitfield8Rule := by
  refine ⟨fun e s => ⟨s.data.extractLsb' 0 8, ?_, rfl, fun i hi => lowByte_getLsbD s.data hi⟩, exec_vwrBitfield8, rfl,
    rfl, fun s h => ?_⟩
  · exact (exec_vwrBitfield8 e s).trans (exec_vwrUint8_of_data rfl e)
  · exact (exec_vwrBitfield8 .big s).trans (exec_vwrUint8_of_data h .big)

end Sys2Proof.Machine
end

section
/-! PROOFS of the family 45_crc16: the meanings of the CRC commands, the update as an injective linear map, and the
checksum that a session leaves. -/

namespace Sys2Proof.Machine

/-! ## The meanings of the CRC commands -/

/-- R89: the whole effect of CRC.INIT. -/
theorem exec_crcInit (s : State) : exec .crcInit s = .next { s with crc := crcInitial } := rfl

/-- R90: CRC.BYTE from a known accumulator. -/
theorem exec_crcByte_of_crc {s : State} {a c : Half} {b : Byte} (ha : s.crc = a) (hc : crcByteValue a b = c) :
    exec (.crcByte b) s = .next { s with crc := c } := by
  subst ha hc
  rfl

/-- R90: the iterations of the loop are those of the library's iteration. -/
theorem crcShifts_eq_iterate (n : Nat) (a : Half) : crcShifts n a = crcShift^[n] a := by
  induction n generalizing a with
  | zero => rfl
  | succ n ih => exact ih (crcShift a)

/-! ## The update is linear and injective (R90, R94) -/

theorem crcShift_xor (a a' : Half) : crcShift (a ^^^ a') = crcShift a ^^^ crcShift a' := by
  simp only [crcShift, BitVec.getLsbD_xor, BitVec.ushiftRight_xor_distrib]
  cases a.getLsbD 0 <;> cases a'.getLsbD 0
  · rfl
  · exact BitVec.xor_assoc ..
  · change a >>> 1 ^^^ a' >>> 1 ^^^ crcPolynomial = a >>> 1 ^^^ crcPolynomial ^^^ a' >>> 1
    ac_rfl
  · have hcancel : (a >>> 1 ^^^ crcPolynomial) ^^^ (a' >>> 1 ^^^ crcPolynomial) =
        a >>> 1 ^^^ a' >>> 1 ^^^ (crcPolynomial ^^^ crcPolynomial) := by
      ac_rfl
    rw [BitVec.xor_self, BitVec.xor_zero] at hcancel
    exact hcancel.symm

theorem crcShifts_xor (n : Nat) (a a' : Half) : crcShifts n (a ^^^ a') = crcShifts n a ^^^ crcShifts n a' := by
  induction n generalizing a a' with
  | zero => rfl
  | succ n ih => simp only [crcShifts, crcShift_xor, ih]

theorem crcByteValue_xor (a a' : Half) (b b' : Byte) :
    crcByteValue (a ^^^ a') (b ^^^ b') = crcByteValue a b ^^^ crcByteValue a' b' := by
  rw [crcByteValue, crcByteValue, crcByteValue, ← crcShifts_xor, BitVec.setWidth_xor]
  congr 1
  ac_rfl

/-- The top bit of the polynomial marks whether the bit shifted out was 1. -/
theorem crcShift_getLsbD_15 (a : Half) : (crcShift a).getLsbD 15 = a.getLsbD 0 := by
  unfold crcShift
  split
  next h => simp [crcPolynomial, h]
  next h => simpa using h

/-- An iteration loses nothing: the bit shifted out is the top bit after it, and the others are shifted. -/
theorem crcShift_injective : Function.Injective crcShift := by
  intro a a' h
  have hlow : a.getLsbD 0 = a'.getLsbD 0 := by
    rw [← crcShift_getLsbD_15, h, crcShift_getLsbD_15]
  have hhigh : a >>> 1 = a' >>> 1 := by
    unfold crcShift at h
    rw [hlow] at h
    split at h
    · exact (BitVec.xor_left_inj _).1 h
    · exact h
  apply BitVec.eq_of_getLsbD_eq
  intro i _
  cases i with
  | zero => exact hlow
  | succ i => simpa [Nat.add_comm] using congrArg (BitVec.getLsbD · i) hhigh

theorem crcShifts_injective (n : Nat) : Function.Injective (crcShifts n) :=
  (funext (crcShifts_eq_iterate n)).symm ▸ crcShift_injective.iterate n

/-- Different accumulators stay different under the same byte. -/
theorem crcByteValue_injective_left (b : Byte) : Function.Injective (crcByteValue · b) := fun _ _ h =>
  (BitVec.xor_left_inj _).1 (crcShifts_injective 8 h)

/-- Different bytes make one accumulator different. -/
theorem crcByteValue_injective_right (a : Half) : Function.Injective (crcByteValue a) := by
  intro b b' h
  have hzext := (BitVec.xor_right_inj a).1 (crcShifts_injective 8 h)
  simpa using congrArg (BitVec.setWidth 8) hzext

/-- Different accumulators stay different under the same bytes. -/
theorem foldl_crcByteValue_injective (m : List Byte) : Function.Injective (m.foldl crcByteValue ·) := by
  induction m with
  | nil => exact Function.injective_id
  | cons b m ih => exact ih.comp (crcByteValue_injective_left b)

/-! ## The checksum of a byte sequence (R91) -/

theorem crc16_append (m m' : List Byte) : crc16 (m ++ m') = m'.foldl crcByteValue (crc16 m) :=
  List.foldl_append

/-- One byte of a sequence is determined by the checksum and the other bytes. -/
theorem crc16_replace_injective (p q : List Byte) : Function.Injective fun b => crc16 (p ++ b :: q) := by
  intro b b' h
  simp only [crc16_append, List.foldl_cons] at h
  exact crcByteValue_injective_right _ (foldl_crcByteValue_injective q h)

/-! ## Runs with a session's CRC commands -/

/-- What a command leaves in the accumulator (R89, R90, R93). -/
def crcAfter (c : Half) : Instr → Half
  | .crcInit => crcInitial
  | .crcByte b => crcByteValue c b
  | _ => c

theorem exec_crc {i : Instr} {s t : State} (h : exec i s = .next t) : t.crc = crcAfter s.crc i := by
  cases i with
  | crcInit => cases h; rfl
  | crcByte b => cases h; rfl
  | _ => exact exec_keeps_crc (by rintro ⟨⟩) h

/-- R48, R58: an event that executes a command is the write of its word to CMD. -/
theorem Event.eq_commandEvent_of_instr {e : Event} {i : Instr} (h : e.instr? = some i) :
    e = commandEvent (encode i) := by
  cases e with
  | read off size => cases h
  | setRst level => cases h
  | write off size v =>
    by_cases hcmd : off = slotOffset .cmd ∧ size = 4
    · have hdecode : (decodeWord v).toOption = some i := by simpa [Event.instr?, Event.command?, hcmd] using h
      rw [encode_of_decodeWord (decodeWord_of_toOption hdecode), hcmd.1, hcmd.2]
      rfl
    · simp [Event.instr?, Event.command?, hcmd] at h

theorem Event.instr_of_crcCommand {e : Event} {i : Instr} (h : e.crcCommand? = some i) : e.instr? = some i :=
  (Option.filter_eq_some_iff.1 h).1

theorem Event.runsGroup_crc_of_crcCommand_none {e : Event} (h : e.crcCommand? = none) : e.runsGroup .crc = false := by
  rw [Event.runsGroup]
  split
  next i hi => simpa [Event.crcCommand?, hi] using h
  next => rfl

theorem serve_crcCommand_crc {e : Event} {i : Instr} {s t : State} (hrst : s.rst = false)
    (he : e.crcCommand? = some i) (h : serve e s = .next t) : t.crc = crcAfter s.crc i := by
  rw [Event.eq_commandEvent_of_instr (Event.instr_of_crcCommand he), serve_encode hrst] at h
  exact exec_crc h

/-- R93: an event that is no reset and no CRC command leaves the accumulator. -/
theorem serve_keeps_crc {e : Event} {s t : State} (hrst : s.rst = false) (hn : e.noReset = true)
    (he : e.crcCommand? = none) (h : serve e s = .next t) : t.crc = s.crc := by
  have hstep : step { s with pending := [e] } = .next { t with pending := [] } := by
    rw [step_cons, h]
    rfl
  by_contra hne
  obtain ⟨e', es, hp, hg⟩ := step_crc_writer hstep (not_underReset_of_noReset hrst hn) hne
  cases hp
  simp [Event.runsGroup_crc_of_crcCommand_none he] at hg

/-- R93: over a run without reset the accumulator follows the CRC commands alone. -/
theorem serves_crc {s t : State} {es : List Event} (hrst : s.rst = false) (hes : ∀ e ∈ es, e.noReset = true)
    (h : Serves s es t) : t.crc = (es.filterMap Event.crcCommand?).foldl crcAfter s.crc := by
  induction es generalizing s with
  | nil =>
    cases (serves_nil s t).1 h
    rfl
  | cons e es ih =>
    obtain ⟨u, hu, ht⟩ := (serves_cons s t e es).1 h
    obtain ⟨hn, hes'⟩ := List.forall_mem_cons.1 hes
    have hurst : u.rst = false := by
      rw [serve_rst hu, hrst, rstAfter_of_noReset hn]
    rw [ih hurst hes' ht]
    cases he : e.crcCommand? with
    | none => rw [List.filterMap_cons_none he, serve_keeps_crc hrst hn he hu]
    | some i => rw [List.filterMap_cons_some he, List.foldl_cons, serve_crcCommand_crc hrst he hu]

/-- R91: the CRC commands of a session leave the checksum of its bytes, whatever the accumulator was. -/
theorem foldl_crcAfter_session (c : Half) (m : List Byte) :
    (.crcInit :: m.map Instr.crcByte).foldl crcAfter c = crc16 m := by
  rw [List.foldl_cons, List.foldl_map]
  rfl

/-! ## The statements -/

/-- Settles O34: the update is linear in the accumulator and the byte together. -/
theorem crcUpdateIsLinear : Obligations.CrcUpdateIsLinear := fun s s' b b' =>
  ⟨crcByteValue s.crc b, crcByteValue s'.crc b', rfl, rfl, exec_crcByte_of_crc rfl (crcByteValue_xor _ _ _ _)⟩

/-- Settles O35: the accumulator follows the CRC commands of a run, which are those of a session. -/
theorem sessionLeavesChecksum : Obligations.SessionLeavesChecksum := by
  refine ⟨rfl, fun m b => crc16_append m [b], fun s t es m hrst hes hm h => ?_,
    fun s m hrst => serves_crcOverEvents hrst m⟩
  rw [serves_crc hrst hes h, hm, foldl_crcAfter_session]

/-- Settles O36: a run of CRC.BYTE commands folds its bytes into whatever checksum the accumulator holds. -/
theorem checksumContinues : Obligations.ChecksumContinues := by
  refine ⟨fun s m hrst => serves_crcOverEvents hrst m, rfl, fun m => serves_crcBytesEvents rfl m,
    fun s m m' hrst hcrc => ?_⟩
  rw [crc16_append, ← hcrc]
  exact serves_crcBytesEvents hrst m'

/-- Settles O38: equal checksums would make the flipped byte equal to the byte itself. -/
theorem singleBitFlipChangesChecksum : Obligations.SingleBitFlipChangesChecksum := by
  intro p q b j hj
  have hmask : BitVec.ofNat 8 (2 ^ j) ≠ 0 := by
    interval_cases j <;> decide
  exact (crc16_replace_injective p q).ne fun hbyte => hmask (xor_left_eq_self_iff.1 hbyte)

/-- Settles O32, from the whole effect of CRC.INIT. -/
theorem crcInitRule : Obligations.CrcInitRule := by
  refine ⟨exec_crcInit, rfl, fun s _ => exec_crcInit s, fun s t h => ?_⟩
  rw [exec_crcInit] at h
  cases h
  exact exec_crcInit _

/-- Settles O33: the loop written out is the iteration of the model's; the cases are computed. -/
theorem crcByteRule : Obligations.CrcByteRule := by
  refine ⟨fun b s => exec_crcByte_of_crc rfl ?_, encode_crcByte,
    fun s h => exec_crcByte_of_crc h (crcByteValue_self 0),
    fun s h => ⟨exec_crcByte_of_crc h rfl, exec_crcByte_of_crc h rfl, exec_crcByte_of_crc h rfl⟩, rfl⟩
  rw [crcByteValue, crcShifts_eq_iterate]
  exact (List.foldl_const crcShift _ (List.range 8)).symm

end Sys2Proof.Machine
end

section
/-! PROOFS of the family 60_exceptions: what one event does to ILL, what a run without reset does to it, and the
commands' independence of it. -/

namespace Sys2Proof.Machine

/-! ## ILL over one event -/

theorem Event.eq_commandEvent_of_command {e : Event} {w : Word} (h : e.command? = some w) : e = commandEvent w := by
  cases e with
  | read off size => cases h
  | setRst level => cases h
  | write off size v =>
    simp only [Event.command?] at h
    split at h
    next hcmd =>
      obtain ⟨rfl, rfl⟩ := hcmd
      cases h
      rfl
    next => cases h

/-- R58, R63: an event that writes an illegal word is the write to CMD of a word that does not decode. -/
theorem Event.exists_commandEvent_of_writesIllegal {e : Event} (h : e.writesIllegal = true) :
    ∃ w r, e = commandEvent w ∧ decodeWord w = .error r := by
  unfold Event.writesIllegal at h
  split at h
  next => cases h
  next w hw =>
    refine ⟨w, ?_⟩
    cases hd : decodeWord w with
    | ok i =>
      rw [hd] at h
      cases h
    | error r => exact ⟨r, Event.eq_commandEvent_of_command hw, rfl⟩

/-- R97: out of reset, the write of an illegal word raises IllegalCommand and does nothing else. -/
theorem serve_of_writesIllegal {e : Event} {s : State} (hrst : s.rst = false) (he : e.writesIllegal = true) :
    serve e s = .next (raiseIllegalCommand s) := by
  obtain ⟨w, r, rfl, hd⟩ := Event.exists_commandEvent_of_writesIllegal he
  rw [serve_commandEvent hrst, execWord_of_error hd]

/-- R22, R97: an event that is no reset and writes no illegal word leaves ILL. -/
theorem serve_keeps_ill {e : Event} {s t : State} (hrst : s.rst = false) (hn : e.noReset = true)
    (he : e.writesIllegal = false) (h : serve e s = .next t) : t.ill = s.ill := by
  have hstep : step { s with pending := [e] } = .next { t with pending := [] } := by
    rw [step_cons, h]
    rfl
  rcases step_keeps_ill hstep (not_underReset_of_noReset hrst hn) with hkeep | ⟨-, e', es, hp, he'⟩
  · exact hkeep
  · cases hp
    simp [he] at he'

/-- R22, R97: an event that is no reset adds to ILL whether it writes an illegal word. -/
theorem serve_ill {e : Event} {s t : State} (hrst : s.rst = false) (hn : e.noReset = true)
    (h : serve e s = .next t) : t.ill = (s.ill || e.writesIllegal) := by
  cases he : e.writesIllegal with
  | true =>
    rw [serve_of_writesIllegal hrst he] at h
    cases h
    simp
  | false => rw [serve_keeps_ill hrst hn he h, Bool.or_false]

/-! ## ILL over a run -/

/-- R98: over a run without reset ILL collects whether any event writes an illegal word. -/
theorem serves_ill {s t : State} {es : List Event} (hrst : s.rst = false) (hes : ∀ e ∈ es, e.noReset = true)
    (h : Serves s es t) : t.ill = (s.ill || es.any Event.writesIllegal) := by
  induction es generalizing s with
  | nil =>
    cases (serves_nil s t).1 h
    simp
  | cons e es ih =>
    obtain ⟨u, hu, ht⟩ := (serves_cons s t e es).1 h
    obtain ⟨hn, hes'⟩ := List.forall_mem_cons.1 hes
    have hurst : u.rst = false := by
      rw [serve_rst hu, hrst, rstAfter_of_noReset hn]
    rw [ih hurst hes' ht, serve_ill hrst hn hu, List.any_cons, Bool.or_assoc]

/-! ## ILL as the client and the commands see it -/

/-- R21: ILL is bit 0 of the STATUS word. -/
theorem statusWord_getLsbD_zero (s : State) : (statusWord s).getLsbD 0 = s.ill := by
  rw [statusWord, zext32, BitVec.getLsbD_setWidth, BitVec.getLsbD_append]
  simp

/-- R98: a command gives the same next state whatever ILL is, up to ILL itself. -/
theorem exec_withIll {i : Instr} {s t : State} (h : exec i s = .next t) (b : Bool) :
    exec i { s with ill := b } = .next { t with ill := b } := by
  cases i with
  | crcInit =>
    cases h
    rfl
  | crcByte byte =>
    cases h
    rfl
  | _ e =>
    cases e <;>
    · cases h
      rfl

/-- Settles O43: ILL over a run, its bit in STATUS, and the commands' independence of it. -/
theorem illIsStickyAndMissesNothing : Obligations.IllIsStickyAndMissesNothing := by
  refine ⟨fun s t es hrst hes h => serves_ill hrst hes h, statusWord_getLsbD_zero, fun i s b => ?_⟩
  obtain ⟨t, ht⟩ := exec_answers i s
  obtain ⟨-, -, -, -, hill⟩ := exec_keeps ht
  exact ⟨t, ht, hill, exec_withIll ht b⟩

end Sys2Proof.Machine
end

section
/-! PROOFS of the family 70_reset_and_hazards: what `rst` does to the registers and to accesses, RV over a step out of
reset, and a read straight after a command. -/

namespace Sys2Proof.Machine

/-! ## The reset input -/

/-- R111: a change of `rst` that asserts it or finds it asserted leaves the registers at reset and the later events at
the port. -/
theorem step_setRst_underReset {s : State} {level : Bool} {es : List Event} (hp : s.pending = .setRst level :: es)
    (hr : underReset s) : ∃ t, step s = .next t ∧ AtReset t ∧ t.rst = level ∧ t.pending = es := by
  have hstep : step s = .next (driveRst level { s with pending := es }) := step_of_pending hp
  exact ⟨_, hstep, step_underReset hstep hr, driveRst_rst _ _, driveRst_pending _ _⟩

/-- R111: while `rst` is asserted every access is refused as made in reset. -/
theorem accessRefusal_of_asserted {rst : Bool} (h : rst = true) (off : BitVec 6) (size : Nat) :
    accessRefusal? rst off size = some .accessDuringReset :=
  if_pos h

/-- R15: a step with nothing at the port idles. -/
theorem step_of_no_event {s : State} (hp : s.pending = []) : step s = .next (idle s) := by
  rw [step, serveNext, hp]

/-! ## STATUS.RV -/

/-- R23: no command clears RV. -/
theorem exec_keeps_rv_set {i : Instr} {s t : State} (h : exec i s = .next t) (hrv : s.rv = true) : t.rv = true := by
  by_cases hg : commandGroup i = .read
  · obtain ⟨k, e, rfl⟩ := exists_vrd_of_read hg
    rw [exec_vrd] at h
    cases h
    rfl
  · obtain ⟨-, hkeep, -⟩ := exec_keeps_result hg h
    exact hkeep.trans hrv

/-- R23, R111: out of reset no step clears RV. -/
theorem step_keeps_rv_set {s t : State} (h : step s = .next t) (hr : ¬ underReset s) (hrv : s.rv = true) :
    t.rv = true := by
  by_contra hne
  have hchanged : t.rv ≠ s.rv := fun heq => hne (heq.trans hrv)
  obtain ⟨e, es, -, ⟨i, -, ht⟩ | ⟨off, v, -, rfl⟩⟩ :=
    step_changes_by_command_or_store State.rv (fun _ _ _ _ => rfl) h hr hchanged
  · exact hne (exec_keeps_rv_set ht hrv)
  · exact hchanged (storeSlot_rv _ _ _)

/-- R22, R111: out of reset no step clears ILL. -/
theorem step_keeps_ill_set {s t : State} (h : step s = .next t) (hr : ¬ underReset s) (hill : s.ill = true) :
    t.ill = true := by
  rcases step_keeps_ill h hr with hkeep | ⟨hset, -⟩
  · exact hkeep.trans hill
  · exact hset

/-- Settles O41: what a step does at each level and change of `rst`, and that out of reset none clears ILL or RV. -/
theorem resetInputRules : Obligations.ResetInputRules := by
  refine ⟨?assert, ?access, ?hold, ?deassert, ?served, ?cleared⟩
  case assert => exact fun s es hp => step_setRst_underReset hp (.inr ⟨es, hp⟩)
  case access =>
    intro s es off size v hrst hp
    have hrefused := accessRefusal_of_asserted hrst off size
    rcases hp with hp | hp
    · simp only [step_of_pending hp, serve, hrefused]
    · simp only [step_of_pending hp, serve, hrefused]
  case hold =>
    intro s hrst hp
    have hstep := step_of_no_event hp
    refine ⟨_, hstep, step_underReset hstep (.inl hrst), ?_⟩
    rw [idle_of_high hrst, resetRegisters_rst, hrst]
  case deassert => exact fun s es hrst hp => step_setRst_underReset hp (.inl hrst)
  case served =>
    intro s e es hrst hp hallowed
    rw [step_of_pending hp, serve_answers_iff]
    rwa [hrst]
  case cleared =>
    intro s t h hcleared
    by_contra hr
    rcases hcleared with ⟨hill, hill'⟩ | ⟨hrv, hrv'⟩
    · exact Bool.false_ne_true (hill'.symm.trans (step_keeps_ill_set h hr hill))
    · exact Bool.false_ne_true (hrv'.symm.trans (step_keeps_rv_set h hr hrv))

/-! ## A read straight after a command -/

/-- R117: the read of a slot straight after a command returns what the command left in the slot. -/
theorem read_after_command {s : State} (hrst : s.rst = false) (i : Instr) (sl : Slot) : ∃ t u,
    exec i s = .next t ∧ Serves s [commandEvent (encode i), readEvent sl] u ∧
    u.replies = s.replies ++ [readSlot (some sl) t] := by
  obtain ⟨t, ht⟩ := exec_answers i s
  obtain ⟨-, hreplies, hrst', -, -⟩ := exec_keeps ht
  have hcommand := (serve_encode hrst i).trans ht
  have hread := serve_readEvent (hrst'.trans hrst) sl
  refine ⟨t, _, ht, (serves_cons _ _ _ _).2 ⟨t, hcommand, serves_singleton hread⟩, ?_⟩
  rw [reply_replies, hreplies]

/-- Settles O54: the read after a command, at the slots of RESULT, of a window byte and of CRC. -/
theorem resultVisibleAtNextAccess : Obligations.ResultVisibleAtNextAccess := by
  refine ⟨fun k e s hrst => read_after_command hrst (Instr.vrd k e) .result, fun k e s i off hrst hoff => ?_,
    fun b s hrst => read_after_command hrst (.crcByte b) .crc⟩
  obtain rfl : off = slotOffset (winSlot i) := BitVec.eq_of_toNat_eq (hoff.trans (slotOffset_winSlot i).symm)
  obtain ⟨t, u, ht, hu, hreplies⟩ := read_after_command hrst (Instr.vwr k e) (winSlot i)
  rw [readSlot_winSlot] at hreplies
  exact ⟨t, u, ht, hu, hreplies⟩

end Sys2Proof.Machine
end
